-- ==== Sys2Proof/Word.lean ====
section
/-! DEFINITION. The word types of the machine: a byte, the 128-bit ledger word, the 52-bit device
address, and the numbers that name a core, a register or a unit. -/
namespace Sys2Proof

/-- One byte of memory (R13). -/
abbrev Byte := BitVec 8

/-- The 128-bit ledger word (R17). -/
abbrev Word := BitVec 128

/-- A 52-bit device address (R12). -/
abbrev Addr := BitVec 52

/-- A core number, 0 to 47 (R1). -/
abbrev CoreId := Fin 48

/-- A general, wide or vector register number (R17, R44). -/
abbrev Reg := Fin 32

/-- A mask register number (R49). -/
abbrev KReg := Fin 8

/-- The condition field of an instruction (R92, R96). -/
abbrev Cond := BitVec 4

/-- The width field W (R93). -/
abbrev Wf := BitVec 2

/-- An event number (R333). -/
abbrev EventId := Fin 512

/-- An engine number: 0 to 31 curve, 32 housekeeping, 33 to 48 symmetric (R377). -/
abbrev EngineId := Fin 49

/-- A witness pair number (R399). -/
abbrev PairId := Fin 24

/-- A ring number (R432). -/
abbrev RingId := Fin 64

/-- A mover channel number (R450). -/
abbrev ChannelId := Fin 64

/-- An egress channel number (R442). -/
abbrev EgressId := Fin 4

/-- A PCI Express function: 0 PF0, 1 PF1, 1 + k VF k (R427). -/
abbrev FunctionId := Fin 65

/-- An IDE stream number (R447). -/
abbrev StreamId := Fin 4

/-- An HBM3E stack number (R466). -/
abbrev StackId := Fin 4

/-- A scrubber: 0 to 47 the banks, 48 to 95 the LDS of a core, 96 to 143 the LIS of a core (R262). -/
abbrev ScrubberId := Fin 144

/-- A GPIO pin (R513). -/
abbrev GpioId := Fin 16

/-- A tamper input (R505). -/
abbrev TamperId := Fin 2

/-- An operand field of a microword (R353). -/
abbrev MOpnd := BitVec 6

/-- A 128-bit word with its capability tag: what a general register or a capability system
register holds (R17, R309). -/
structure TWord where
  val : Word
  tag : Bool
  deriving DecidableEq, Repr

/-- The null capability (R37). -/
def TWord.null : TWord := { val := 0, tag := false }

/-- An untagged word (R20). -/
def TWord.plain (v : Word) : TWord := { val := v, tag := false }

end Sys2Proof
end

