-- ==== Sys2Proof/Config.lean ====
section
/-! DEFINITION. What the spec leaves open: values with no body, so that nothing can be proved of what
they are. Each one is named in the assumption log. -/
namespace Sys2Proof.Config

/-- Free value: the n-th random byte drawn from the DRBG (R394). The spec fixes no output of the
entropy source. Log entry 10. -/
opaque randomByte : Nat → Byte

/-- Free value: the result an FDSTEP leaves in gd+1 for a pair that no start instruction has written
(Caution under R236). Log entry 11. -/
opaque fdstepResult : Nat → Word

/-- Free value: the bytes of the identity block that R497 does not fix (lot, wafer, die, date, factory
trim CRC, vendor key hash, certificate chain), by offset. Log entry 9. -/
opaque identityByte : Nat → Byte

/-- Free value: the die's identity private key before reduction to the range 1 to n - 1 (R387). Log entry 9. -/
opaque identityKey : Nat

/-- Free value: the bytes of the boot ROM (R247, R489), by offset. Log entry 12. -/
opaque bootRomByte : Nat → Byte

/-- Free value: the trim page as it left the factory (R495), by offset. Log entry 13. -/
opaque trimByte : Nat → Byte

/-- Free value: whether an RST_N pulse shorter than 10 us applies a device reset (R480), by the count of
free values drawn. Log entry 14. -/
opaque shortResetTaken : Nat → Bool

/-- Free value: whether a crossing takes the later of its two possible cycles (R8, R474), by the count of free
values drawn. Log entry 15. -/
opaque lateCrossing : Nat → Bool

/-- Free value: the fabric cycles per block, and the slots, that a compute count takes where the key named does not give
them (R385, R390). Log entry 18. -/
opaque unkeyedCount : Nat

/-- Free value: the address under which an error in a slot of the key store is reported, which no address reaches (R269, R383, R388). Log
entry 103. -/
opaque keyStoreAddr : Nat → BitVec 52

/-- Free value: the digit that a PAN byte other than an ASCII digit gives (R386). Log entry 19. -/
opaque panDigit : Byte → Nat

/-- Free value: the Max Payload Size that the host has set, as a code: 128, 256 or 512 bytes (R426, R456). Log entry 23. -/
opaque payloadCode : Nat

/-- Free value: the Max Read Request Size that the host has set, as a code: 128 to 4,096 bytes (R426, R456). Log entry 23. -/
opaque readRequestCode : Nat

/-- Free value: the magnitude that a decimal micro-operation takes from a word whose digits are invalid (R356). Log entry 26. -/
opaque invalidMagnitude : Word → Nat

/-- Free value: whether a decimal micro-operation takes an invalid sign code for minus (R356). Log entry 26. -/
opaque invalidMinus : Word → Bool

/-- Free value: the bytes of an MRAM row or of the fuses whose writing was cut, by the draw and the offset (R482, R494).
Log entry 27. -/
opaque tornByte : Nat → Nat → Byte

/-- Free value: the bytes that a device reset leaves in LDS, LIS, the global scratchpad and attached memory (R487). Log
entry 28. -/
opaque undefinedCells : Nat → List (Nat × Byte)

/-- Free value: the words whose tags are set after a device reset, in LDS, LIS and the global scratchpad (R487). Log entry 28. -/
opaque undefinedTags : Nat → List Nat

/-- Free value: the LEN of the reply by which the boot ROM acknowledges a piece of a pushed image (R491). Log entry 29. -/
opaque ackLength : Nat → BitVec 13

/-- Free value: what the boundary scan captures, whose cells and order the spec does not give (R520). Log entry 30. -/
opaque boundaryScan : Nat → List Bool

/-- Free value: the bytes of a function's configuration space that the spec does not give (R426, R427). Log entry 107. -/
opaque configByte : Nat → Nat → Byte

end Sys2Proof.Config
end

