-- ==== Sys2Proof/Machine/Bits.lean ====
section
/-! DEFINITION. Bytes, bit fields and byte orders (R11-R13, R23, R30). -/
namespace Sys2Proof.Machine

/-- The n bytes of a number, least significant first (R23). -/
def leBytes : Nat → Nat → List Byte
  | 0, _ => []
  | n + 1, v => BitVec.ofNat 8 v :: leBytes n (v / 256)

/-- The number that bytes hold, least significant first (R23). -/
def ofLe : List Byte → Nat
  | [] => 0
  | b :: bs => b.toNat + 256 * ofLe bs

/-- The n bytes of a number, most significant first (R30, R384). -/
def beBytes (n v : Nat) : List Byte := (leBytes n v).reverse

/-- The number that bytes hold, most significant first. -/
def ofBe (bs : List Byte) : Nat := ofLe bs.reverse

/-- The field [lo+w-1:lo] of a number. -/
def field (v lo w : Nat) : Nat := (v / 2 ^ lo) % 2 ^ w

/-- A number of n bits read as two's complement. -/
def toSigned (n v : Nat) : Int := if v % 2 ^ n < 2 ^ (n - 1) then (v % 2 ^ n : Nat) else ((v % 2 ^ n : Nat) : Int) - 2 ^ n

/-- The low n bits of an integer, as a number. -/
def wrapTo (n : Nat) (x : Int) : Nat := (x % (2 ^ n : Int)).toNat

/-- ⌈a / b⌉. -/
def cdiv (a b : Nat) : Nat := (a + b - 1) / b

/-- The first even cycle at or after t (R255). -/
def evenFrom (t : Nat) : Nat := t + t % 2

/-- The first fabric cycle that begins at or after cycle t (R253, R379). -/
def fcFrom (t : Nat) : Nat := (t + 1) / 2

/-- The number of 64-byte-aligned blocks that hold a byte of a range (R167, R382). -/
def blocksOf (a n : Nat) : Nat := if n = 0 then 0 else (a + n - 1) / 64 - a / 64 + 1

/-- The parts of a range in the 64-byte-aligned blocks that hold it, each with its length, in ascending order (R382). -/
def blockParts (a n : Nat) : List (Nat × Nat) :=
  (List.range (blocksOf a n)).map fun k =>
    let lo := max a (64 * (a / 64 + k))
    (lo, min (a + n) (64 * (a / 64 + k) + 64) - lo)

/-- Whether the ranges [a, a+n) and [b, b+m) share a byte. -/
def overlaps (a n b m : Nat) : Bool := decide (a < b + m) && decide (b < a + n) && decide (0 < n) && decide (0 < m)

/-- The positions of the bits of a vector that are set, in ascending order. -/
def setBits {n : Nat} (v : BitVec n) : List Nat := (List.range n).filter fun i => v.getLsbD i

/-- A vector with bit i set to b. -/
def putBit {n : Nat} (v : BitVec n) (i : Nat) (b : Bool) : BitVec n :=
  if b then v ||| (1#n <<< i) else v &&& ~~~(1#n <<< i)

/-- A vector with the field of width w at lo replaced by v. -/
def putField {n w : Nat} (x : BitVec n) (lo : Nat) (v : BitVec w) : BitVec n :=
  (x &&& ~~~((BitVec.allOnes w).setWidth n <<< lo)) ||| (v.setWidth n <<< lo)

/-- A counter of n bits that saturates. -/
def satAdd {n : Nat} (v : BitVec n) (k : Nat) : BitVec n :=
  if v.toNat + k < 2 ^ n then BitVec.ofNat n (v.toNat + k) else BitVec.allOnes n

/-- A list with the element at i replaced, where i lies in it. -/
def putAt {α : Type} (l : List α) (i : Nat) (x : α) : List α := l.set i x

/-- The bytes of `new` written over a list from position i on. -/
def overlay (l : List Byte) (i : Nat) (new : List Byte) : List Byte :=
  match new with
  | [] => l
  | b :: bs => overlay (l.set i b) (i + 1) bs

/-- A list of n bytes: a list cut to n or filled with zeros (R388, R407). -/
def padTo (n : Nat) (bs : List Byte) : List Byte := (bs ++ List.replicate (n - bs.length) 0).take n

/-- Bytes [lo, lo+n) of a list, with zeros beyond its end. -/
def slice (bs : List Byte) (lo n : Nat) : List Byte := padTo n (bs.drop lo)

/-- The sorted list with x in it once. -/
def insertNat (x : Nat) : List Nat → List Nat
  | [] => [x]
  | y :: r => if x < y then x :: y :: r else if x = y then y :: r else y :: insertNat x r

end Sys2Proof.Machine
end

