-- ==== Sys2Proof/Machine/Caps.lean ====
section
/-! DEFINITION. Capabilities: their fields (R36), the decoding of bounds (R271), representability (R272)
and the updates that instructions make. -/
namespace Sys2Proof.Machine

/-- PERMS, bits [127:114] (R36). -/
def capPerms (w : Word) : BitVec 14 := w.extractLsb' 114 14
/-- KEY, bits [113:110]. -/
def capKey (w : Word) : BitVec 4 := w.extractLsb' 110 4
/-- OTYPE, bits [109:100]. -/
def capOtype (w : Word) : BitVec 10 := w.extractLsb' 100 10
/-- EXP, bits [99:94]. -/
def capExp (w : Word) : BitVec 6 := w.extractLsb' 94 6
/-- TOP, bits [93:73]. -/
def capTop (w : Word) : BitVec 21 := w.extractLsb' 73 21
/-- BASE, bits [72:52]. -/
def capBase (w : Word) : BitVec 21 := w.extractLsb' 52 21
/-- ADDR, bits [51:0]. -/
def capAddr (w : Word) : Addr := w.extractLsb' 0 52

/-- The permission bits by their place in PERMS: bit 13 is LD, bit [127] of the word (R274). -/
def permLD : Nat := 13
/-- ST (R274). -/
def permST : Nat := 12
/-- EX (R274). -/
def permEX : Nat := 11
/-- LDC (R274). -/
def permLDC : Nat := 10
/-- STC (R274). -/
def permSTC : Nat := 9
/-- SEAL (R274). -/
def permSEAL : Nat := 8
/-- UNSEAL (R274). -/
def permUNSEAL : Nat := 7
/-- SYSREG (R274). -/
def permSYSREG : Nat := 6
/-- KEYSET (R274). -/
def permKEYSET : Nat := 5
/-- EVENT (R274). -/
def permEVENT : Nat := 4
/-- ENGINE (R274). -/
def permENGINE : Nat := 3
/-- JOURNAL (R274). -/
def permJOURNAL : Nat := 2
/-- MOVER (R274). -/
def permMOVER : Nat := 1
/-- GLOBAL (R274). -/
def permGLOBAL : Nat := 0

/-- Whether a capability carries a permission. -/
def hasPerm (w : Word) (p : Nat) : Bool := (capPerms w).getLsbD p

/-- The decoded bounds: base and top, for EXP of 31 or less (R271). -/
structure Bounds where
  base : Nat
  top : Nat
  deriving DecidableEq, Repr

/-- R271: the bounds of a capability word, none where EXP is 32 or more. -/
def capBounds (w : Word) : Option Bounds :=
  let e := (capExp w).toNat
  if 32 ≤ e then none
  else
    let a := (capAddr w).toNat
    let amid := field a e 21
    let ahi := a / 2 ^ (e + 21)
    let m := 2 ^ (31 - e)
    let hi := if amid < (capBase w).toNat then (ahi + m - 1) % m else ahi % m
    let base := hi * 2 ^ (e + 21) + (capBase w).toNat * 2 ^ e
    let units := ((capTop w).toNat + 2 ^ 21 - (capBase w).toNat - 1) % 2 ^ 21 + 1
    some { base := base, top := base + units * 2 ^ e }

/-- Whether n bytes from ea on lie within the bounds of a word (R271). -/
def inBounds (w : Word) (ea n : Nat) : Bool :=
  match capBounds w with
  | none => false
  | some b => decide (b.base ≤ ea) && decide (ea + n ≤ b.top)

/-- R272: whether ADDR a is representable with the bounds of a word. -/
def representable (w : Word) (a : Nat) : Bool :=
  match capBounds w with
  | none => false
  | some b => decide ((a + 2 ^ 52 - b.base) % 2 ^ 52 < 2 ^ ((capExp w).toNat + 21))

/-- A word with its ADDR replaced. -/
def setAddr (w : Word) (a : Addr) : Word := putField w 0 a
/-- A word with its OTYPE replaced. -/
def setOtype (w : Word) (o : BitVec 10) : Word := putField w 100 o
/-- A word with its KEY replaced. -/
def setKey (w : Word) (k : BitVec 4) : Word := putField w 110 k
/-- A word with its PERMS replaced. -/
def setPerms (w : Word) (p : BitVec 14) : Word := putField w 114 p

/-- R273: a capability with ADDR changed keeps its tag only where the new ADDR is representable. -/
def moveAddr (c : TWord) (a : Addr) : TWord :=
  { val := setAddr c.val a, tag := c.tag && representable c.val a.toNat }

/-- R279: a word is sealed only when it is tagged and its OTYPE is not 0. -/
def isSealed (c : TWord) : Bool := c.tag && decide (capOtype c.val ≠ 0)

/-- The unsealed form of a capability (R280, R283). -/
def unsealed (c : TWord) : TWord := { c with val := setOtype c.val 0 }

/-- R295: a tagged key handle, OTYPE 0x3FF. -/
def isHandle (c : TWord) : Bool := c.tag && decide (capOtype c.val = 0x3FF)

/-- R277, R282: the smallest E of 0 to 31 for which `need` units fit, or 31; k exponents are tried from e. -/
def findExp (fits : Nat → Bool) : Nat → Nat → Nat
  | 0, _ => 31
  | k + 1, e => if fits e then e else findExp fits k (e + 1)

end Sys2Proof.Machine
end

