-- ==== Sys2Proof/Syntax.lean ====
section
/-! DEFINITION. The commands of the block: one constructor for each row of spec/opcode_table.json, with the
row's operands. An instruction carries its core, its condition field and the fields of its encoding; a unit's
step carries the unit's number; a step of the host, of a pin or of a line carries what the outside gives. -/

namespace Sys2Proof

/-- The element width of a vector instruction (R194, R195). -/
inductive VElt where
  | byte | half | word | dbl | quad
  deriving DecidableEq, Repr

/-- What the host side answers to a mover burst (R456, R457): nothing is asked of it, it takes a posted
write, it returns the bytes of a read, or the read ends with an error, poison or a timeout. -/
inductive HostReply where
  | none
  | taken
  | data (bytes : List Byte)
  | error
  deriving DecidableEq, Repr

/-- Where stored bits can change by themselves under an error-correcting code (R265, R388, R467): the word or unit that holds an address,
a frame key byte in the copy of a tile or in the master table, or a slot of the key store. -/
inductive UpsetAt where
  | word (a : Addr)
  | tileKey (c : CoreId) (frame : BitVec 14)
  | masterKey (frame : BitVec 14)
  | keySlot (n : BitVec 16)
  deriving DecidableEq, Repr

/-- A change of stored bits: of one bit, which the code corrects, or of more (`double`), which it detects (R266, R267). -/
structure Upset where
  at_ : UpsetAt
  double : Bool
  deriving DecidableEq, Repr

/-- The host-link error conditions of R448. -/
inductive TlpError where
  | unsupportedRequest | poisoned | ecrc | completionTimeout
  | malformed | receiverOverflow | flowControl | dataLink | internal
  | receiverError | badTlp | badDllp | replay
  deriving DecidableEq, Repr

/-- The BAR, or the configuration space, of a function that a host access names (R427). -/
inductive HostBar where
  | bar0 (f : FunctionId)
  | bar2 (f : FunctionId)
  | bar4
  | config (f : FunctionId)
  deriving DecidableEq, Repr

/-- Where a host access goes: the BAR, or the configuration space, and the offset in it (R427). -/
structure HostPlace where
  bar : HostBar
  off : BitVec 30
  deriving DecidableEq, Repr

/-- Where a host write into ring slots goes: the function whose BAR2 it names, and the offset in it (R427, R430). -/
structure SlotPlace where
  fn : FunctionId
  off : BitVec 24
  deriving DecidableEq, Repr

/-- What resets a function: a function-level reset, or a return from D3hot, which acts as one; a function goes to D3hot before it (R426). -/
inductive FlrCause where
  | flr | toD3hot | toD0
  deriving DecidableEq, Repr

/-- A function and what resets it or puts it into D3hot (R426). -/
structure FlrEvent where
  fn : FunctionId
  cause : FlrCause
  deriving DecidableEq, Repr

/-- A host access: a load, or a store of bytes (R428, R431). -/
inductive HostAccess where
  | read (len : Nat)
  | write (bytes : List Byte)
  deriving DecidableEq, Repr

/-- The two rails with a warning threshold (R481). -/
inductive WarnRail where
  | core | mram
  deriving DecidableEq, Repr

/-- The rails whose fall applies a device reset (R481). -/
inductive ResetRail where
  | core | sram | io
  deriving DecidableEq, Repr

/-- Who makes a register write (R14, R428): a core at base level, a core at another level whose
capability carries SYSREG or does not (R371), or the host through BAR0. -/
inductive Writer where
  | base
  | native (sysreg : Bool)
  | host
  deriving DecidableEq, Repr

/-- The size of a register write, 1 to 16 bytes (R114). -/
inductive RegSize where
  | b1 | b2 | b4 | b8 | b16
  deriving DecidableEq, Repr

/-- What start-up meets outside the compute complex (R488, R489, R491): the strap, the two flash copies and
the image the host pushes, whether the self-test and the training pass, the samples of the entropy source, and whether SYSCLK is back
and the PLL locked (R473). -/
structure BootInput where
  strap : BitVec 2
  selfTestOk : Bool
  copyA : Option (List Byte)
  copyB : Option (List Byte)
  pushed : Option (List Byte)
  seedTrainingOk : Bool
  fullTrainingOk : Bool
  samples : List Bool
  clockBack : Bool
  deriving DecidableEq, Repr

/-- The commands: one constructor for each row of the table of operations and events; those that an instruction word or a microword spells come
first. -/
inductive Instr where
  /-- ADD (R99). Adds ga and gb at width w and writes gd with N, Z, C and V. -/
  | add (c : CoreId) (cond : Cond) (w : Wf) (gd ga gb : Reg)
  /-- SUB (R99). Subtracts gb from ga at width w and writes gd with N, Z, C and V. -/
  | sub (c : CoreId) (cond : Cond) (w : Wf) (gd ga gb : Reg)
  /-- ADC (R99). Adds ga, gb and C at width w. -/
  | adc (c : CoreId) (cond : Cond) (w : Wf) (gd ga gb : Reg)
  /-- SBC (R99). Subtracts gb and the borrow from ga at width w. -/
  | sbc (c : CoreId) (cond : Cond) (w : Wf) (gd ga gb : Reg)
  /-- NEG (R99). Writes the negation of gb at width w. -/
  | neg (c : CoreId) (cond : Cond) (w : Wf) (gd gb : Reg)
  /-- AND (R99). Writes the bitwise AND of ga and gb. -/
  | and (c : CoreId) (cond : Cond) (w : Wf) (gd ga gb : Reg)
  /-- OR (R99). Writes the bitwise OR of ga and gb; MOV is its alias. -/
  | or (c : CoreId) (cond : Cond) (w : Wf) (gd ga gb : Reg)
  /-- XOR (R99). Writes the bitwise exclusive OR of ga and gb. -/
  | xor (c : CoreId) (cond : Cond) (w : Wf) (gd ga gb : Reg)
  /-- ANDN (R99). Writes ga AND NOT gb. -/
  | andn (c : CoreId) (cond : Cond) (w : Wf) (gd ga gb : Reg)
  /-- CMP (R99). Sets N, Z, C and V from ga minus gb without writing a register. -/
  | cmp (c : CoreId) (cond : Cond) (w : Wf) (ga gb : Reg)
  /-- TST (R99). Sets N and Z from ga AND gb without writing a register. -/
  | tst (c : CoreId) (cond : Cond) (w : Wf) (ga gb : Reg)
  /-- SLL (R102). Shifts ga left logically by gb[7:0]. -/
  | sll (c : CoreId) (cond : Cond) (w : Wf) (gd ga gb : Reg)
  /-- SRL (R102). Shifts ga right logically by gb[7:0]. -/
  | srl (c : CoreId) (cond : Cond) (w : Wf) (gd ga gb : Reg)
  /-- SRA (R102). Shifts ga right arithmetically by gb[7:0]. -/
  | sra (c : CoreId) (cond : Cond) (w : Wf) (gd ga gb : Reg)
  /-- ROL (R102). Rotates ga left by gb[7:0] mod w. -/
  | rol (c : CoreId) (cond : Cond) (w : Wf) (gd ga gb : Reg)
  /-- ROR (R102). Rotates ga right by gb[7:0] mod w. -/
  | ror (c : CoreId) (cond : Cond) (w : Wf) (gd ga gb : Reg)
  /-- CLZ (R99). Writes the number of leading zero bits of ga. -/
  | clz (c : CoreId) (cond : Cond) (w : Wf) (gd ga : Reg)
  /-- POPC (R99). Writes the number of set bits of ga. -/
  | popc (c : CoreId) (cond : Cond) (w : Wf) (gd ga : Reg)
  /-- ADDI (R101). Adds a sign-extended immediate to ga. -/
  | addi (c : CoreId) (cond : Cond) (w : Wf) (gd ga : Reg) (imm : BitVec 10)
  /-- SUBI (R101). Subtracts a sign-extended immediate from ga. -/
  | subi (c : CoreId) (cond : Cond) (w : Wf) (gd ga : Reg) (imm : BitVec 10)
  /-- ANDI (R101). ANDs ga with a sign-extended immediate. -/
  | andi (c : CoreId) (cond : Cond) (w : Wf) (gd ga : Reg) (imm : BitVec 10)
  /-- ORI (R101). ORs ga with a sign-extended immediate. -/
  | ori (c : CoreId) (cond : Cond) (w : Wf) (gd ga : Reg) (imm : BitVec 10)
  /-- XORI (R101). Exclusive-ORs ga with a sign-extended immediate. -/
  | xori (c : CoreId) (cond : Cond) (w : Wf) (gd ga : Reg) (imm : BitVec 10)
  /-- CMPI (R101). Compares ga with a sign-extended immediate and sets the flags. -/
  | cmpi (c : CoreId) (cond : Cond) (w : Wf) (ga : Reg) (imm : BitVec 10)
  /-- SLLI (R102). Shifts ga left logically by AMT. -/
  | slli (c : CoreId) (cond : Cond) (w : Wf) (gd ga : Reg) (amt : BitVec 7)
  /-- SRLI (R102). Shifts ga right logically by AMT. -/
  | srli (c : CoreId) (cond : Cond) (w : Wf) (gd ga : Reg) (amt : BitVec 7)
  /-- SRAI (R102). Shifts ga right arithmetically by AMT. -/
  | srai (c : CoreId) (cond : Cond) (w : Wf) (gd ga : Reg) (amt : BitVec 7)
  /-- ROLI (R102). Rotates ga left by AMT. -/
  | roli (c : CoreId) (cond : Cond) (w : Wf) (gd ga : Reg) (amt : BitVec 7)
  /-- RORI (R102). Rotates ga right by AMT. -/
  | rori (c : CoreId) (cond : Cond) (w : Wf) (gd ga : Reg) (amt : BitVec 7)
  /-- MUL (R105). Writes the low w bits of the signed product and sets V on overflow. -/
  | mul (c : CoreId) (cond : Cond) (w : Wf) (gd ga gb : Reg)
  /-- MULU (R105). Writes the low w bits of the unsigned product. -/
  | mulu (c : CoreId) (cond : Cond) (w : Wf) (gd ga gb : Reg)
  /-- MULH (R105). Writes bits 255:128 of the signed 128-bit product. -/
  | mulh (c : CoreId) (cond : Cond) (w : Wf) (gd ga gb : Reg)
  /-- MULHU (R105). Writes bits 255:128 of the unsigned 128-bit product. -/
  | mulhu (c : CoreId) (cond : Cond) (w : Wf) (gd ga gb : Reg)
  /-- DIV (R107). Writes the signed quotient, truncated, in a fixed uninterruptible count. -/
  | div (c : CoreId) (cond : Cond) (w : Wf) (gd ga gb : Reg)
  /-- DIVU (R107). Writes the unsigned quotient in a fixed uninterruptible count. -/
  | divu (c : CoreId) (cond : Cond) (w : Wf) (gd ga gb : Reg)
  /-- REM (R107). Writes the signed remainder in a fixed uninterruptible count. -/
  | rem (c : CoreId) (cond : Cond) (w : Wf) (gd ga gb : Reg)
  /-- REMU (R107). Writes the unsigned remainder in a fixed uninterruptible count. -/
  | remu (c : CoreId) (cond : Cond) (w : Wf) (gd ga gb : Reg)
  /-- DSTEPS (R112). Starts a signed stepped division in a register pair. -/
  | dsteps (c : CoreId) (cond : Cond) (w : Wf) (gd ga gb : Reg)
  /-- DSTEPSU (R112). Starts an unsigned stepped division in a register pair. -/
  | dstepsu (c : CoreId) (cond : Cond) (w : Wf) (gd ga gb : Reg)
  /-- DSTEP (R112). Develops two quotient bits with a signed divisor. -/
  | dstep (c : CoreId) (cond : Cond) (w : Wf) (gd gb : Reg)
  /-- DSTEPU (R112). Develops two quotient bits with an unsigned divisor. -/
  | dstepu (c : CoreId) (cond : Cond) (w : Wf) (gd gb : Reg)
  /-- DSTEPF (R112). Finishes a stepped division, fixing the signs of quotient and remainder. -/
  | dstepf (c : CoreId) (cond : Cond) (w : Wf) (gd : Reg)
  /-- LDB (R114). Loads a sign-extended byte. -/
  | ldb (c : CoreId) (cond : Cond) (g gb : Reg) (off : BitVec 12)
  /-- LDBU (R114). Loads a zero-extended byte. -/
  | ldbu (c : CoreId) (cond : Cond) (g gb : Reg) (off : BitVec 12)
  /-- LDH (R114). Loads a sign-extended halfword. -/
  | ldh (c : CoreId) (cond : Cond) (g gb : Reg) (off : BitVec 12)
  /-- LDHU (R114). Loads a zero-extended halfword. -/
  | ldhu (c : CoreId) (cond : Cond) (g gb : Reg) (off : BitVec 12)
  /-- LDW (R114). Loads a sign-extended word. -/
  | ldw (c : CoreId) (cond : Cond) (g gb : Reg) (off : BitVec 12)
  /-- LDWU (R114). Loads a zero-extended word. -/
  | ldwu (c : CoreId) (cond : Cond) (g gb : Reg) (off : BitVec 12)
  /-- LDD (R114). Loads a sign-extended doubleword. -/
  | ldd (c : CoreId) (cond : Cond) (g gb : Reg) (off : BitVec 12)
  /-- LDDU (R114). Loads a zero-extended doubleword. -/
  | lddu (c : CoreId) (cond : Cond) (g gb : Reg) (off : BitVec 12)
  /-- LDQ (R114). Loads 16 bytes little-endian, untagged. -/
  | ldq (c : CoreId) (cond : Cond) (g gb : Reg) (off : BitVec 12)
  /-- LDCAP (R114). Loads 16 bytes together with the word's tag. -/
  | ldcap (c : CoreId) (cond : Cond) (g gb : Reg) (off : BitVec 12)
  /-- STB (R114). Stores the low byte of gs. -/
  | stb (c : CoreId) (cond : Cond) (g gb : Reg) (off : BitVec 12)
  /-- STH (R114). Stores the low halfword of gs. -/
  | sth (c : CoreId) (cond : Cond) (g gb : Reg) (off : BitVec 12)
  /-- STW (R114). Stores the low word of gs. -/
  | stw (c : CoreId) (cond : Cond) (g gb : Reg) (off : BitVec 12)
  /-- STD (R114). Stores the low doubleword of gs. -/
  | std (c : CoreId) (cond : Cond) (g gb : Reg) (off : BitVec 12)
  /-- STQ (R114). Stores 16 bytes of gs and clears the word tags. -/
  | stq (c : CoreId) (cond : Cond) (g gb : Reg) (off : BitVec 12)
  /-- STCAP (R114). Stores 16 bytes of gs together with its tag. -/
  | stcap (c : CoreId) (cond : Cond) (g gb : Reg) (off : BitVec 12)
  /-- B (R118). Branches to a PC-relative target after two delay slots. -/
  | b (c : CoreId) (cond : Cond) (disp : BitVec 21)
  /-- BL (R118). Branches to a PC-relative target and writes a return capability into g30. -/
  | bl (c : CoreId) (cond : Cond) (disp : BitVec 21)
  /-- BR (R118). Branches through the capability in gb, which becomes the PCC. -/
  | br (c : CoreId) (cond : Cond) (gb : Reg)
  /-- BRL (R118). Branches through gb and writes a return capability into g30. -/
  | brl (c : CoreId) (cond : Cond) (gb : Reg)
  /-- NOP (R121). Does nothing for one cycle. -/
  | nop (c : CoreId) (cond : Cond)
  /-- MFS (R122). Reads a system register into a general register. -/
  | mfs (c : CoreId) (cond : Cond) (g : Reg) (sr : BitVec 6)
  /-- MTS (R122). Writes a general register into a system register, with the STATUS mode shadow where it applies. -/
  | mts (c : CoreId) (cond : Cond) (g : Reg) (sr : BitVec 6)
  /-- SVC (R322). Raises the SVC cause with its code. -/
  | svc (c : CoreId) (cond : Cond) (code : BitVec 12)
  /-- BASECALL (R322). Enters base level with the BASECALL cause and its code. -/
  | basecall (c : CoreId) (cond : Cond) (code : BitVec 12)
  /-- XRET (R320). Checks and restores the saved PCC and STATUS, returning from an exception. -/
  | xret (c : CoreId) (cond : Cond)
  /-- IMM (R97). Prefix supplying 22 high-order bits to the next instruction's immediate or offset. -/
  | imm (c : CoreId) (cond : Cond) (value : BitVec 22)
  /-- RPT (R178). Prefix that issues the following instruction a counted number of times. -/
  | rpt (c : CoreId) (cond : Cond) (gc : Reg)
  /-- DADD (R137). Adds two packed-decimal registers. -/
  | dadd (c : CoreId) (cond : Cond) (gd ga gb : Reg)
  /-- DSUB (R137). Subtracts two packed-decimal registers. -/
  | dsub (c : CoreId) (cond : Cond) (gd ga gb : Reg)
  /-- DMUL (R137). Multiplies two packed-decimal registers exactly, keeping the low 31 digits. -/
  | dmul (c : CoreId) (cond : Cond) (gd ga gb : Reg)
  /-- DDIV (R138). Divides packed decimals, rounding the quotient and writing the remainder. -/
  | ddiv (c : CoreId) (cond : Cond) (gd ga gb : Reg)
  /-- DCMP (R137). Compares two packed-decimal values and sets the flags. -/
  | dcmp (c : CoreId) (cond : Cond) (ga gb : Reg)
  /-- DTST (R137). Tests a packed-decimal value for validity, zero and sign. -/
  | dtst (c : CoreId) (cond : Cond) (ga : Reg)
  /-- DCVB (R140). Converts packed decimal to a binary integer of width w. -/
  | dcvb (c : CoreId) (cond : Cond) (w : Wf) (gd ga : Reg)
  /-- DCVD (R140). Converts a binary integer of width w to packed decimal. -/
  | dcvd (c : CoreId) (cond : Cond) (w : Wf) (gd ga : Reg)
  /-- DSRR (R139). Scales a packed-decimal value by a power of ten with a chosen rounding. -/
  | dsrr (c : CoreId) (cond : Cond) (gd ga : Reg) (sh : BitVec 6) (rmo : BitVec 3)
  /-- DLD (R142). Loads an L-byte packed-decimal field right-aligned into a register. -/
  | dld (c : CoreId) (cond : Cond) (g gb : Reg) (lm1 : BitVec 4) (off : BitVec 8)
  /-- DST (R142). Stores the last L bytes of a register's packed-decimal image. -/
  | dst (c : CoreId) (cond : Cond) (g gb : Reg) (lm1 : BitVec 4) (off : BitVec 8)
  /-- DADDM (R142). Adds a packed-decimal memory field into a register. -/
  | daddm (c : CoreId) (cond : Cond) (g gb : Reg) (lm1 : BitVec 4) (off : BitVec 8)
  /-- DSUBM (R142). Subtracts a packed-decimal memory field from a register. -/
  | dsubm (c : CoreId) (cond : Cond) (g gb : Reg) (lm1 : BitVec 4) (off : BitVec 8)
  /-- PACK (R142). Converts an n-digit zoned field in memory into packed decimal in a register. -/
  | pack (c : CoreId) (cond : Cond) (g gb : Reg) (nm1 : BitVec 5) (off : BitVec 7)
  /-- UNPK (R143). Writes register digits as an n-byte zoned field in memory. -/
  | unpk (c : CoreId) (cond : Cond) (g gb : Reg) (nm1 : BitVec 5) (off : BitVec 7)
  /-- MVB (R157). Copies COUNT bytes between LDS or LIS ranges, advancing the pointers. -/
  | mvb (c : CoreId) (cond : Cond) (gd ga gb : Reg)
  /-- MVBL (R167). Copies bytes in 64-byte blocks, including global-scratchpad ranges. -/
  | mvbl (c : CoreId) (cond : Cond) (gd ga gb : Reg)
  /-- CLCB (R159). Compares two byte strings and stops at the first difference. -/
  | clcb (c : CoreId) (cond : Cond) (gd ga gb : Reg)
  /-- SCB (R160). Searches a byte string for a given byte. -/
  | scb (c : CoreId) (cond : Cond) (gd ga gb : Reg)
  /-- TRB (R161). Translates a byte string in place through a 256-byte table. -/
  | trb (c : CoreId) (cond : Cond) (gd ga gb : Reg)
  /-- TRT (R162). Scans a string through a table, stopping at the first nonzero function byte. -/
  | trt (c : CoreId) (cond : Cond) (gd ga gb : Reg)
  /-- U8V (R164). Validates UTF-8 and optionally transcodes it to Latin-1 or UTF-16. -/
  | u8v (c : CoreId) (cond : Cond) (mode : BitVec 2) (gd ga gb : Reg)
  /-- EDB (R182). Edits a packed-decimal value into a text pattern in place. -/
  | edb (c : CoreId) (cond : Cond) (gd ga gb : Reg)
  /-- EDM (R182). Edits like EDB and records the significance mark address. -/
  | edm (c : CoreId) (cond : Cond) (gd ga gb : Reg)
  /-- FLDW (R187). Walks an ISO 8583 bitmap and writes the offset and length of each field. -/
  | fldw (c : CoreId) (cond : Cond) (gd ga gb : Reg)
  /-- VADD (R207). Adds integer lanes modulo 2^e. -/
  | vadd (c : CoreId) (cond : Cond) (e : VElt) (vd va vb : Reg) (km : KReg)
  /-- VSUB (R207). Subtracts integer lanes modulo 2^e. -/
  | vsub (c : CoreId) (cond : Cond) (e : VElt) (vd va vb : Reg) (km : KReg)
  /-- VMUL (R207). Multiplies integer lanes keeping the low e bits. -/
  | vmul (c : CoreId) (cond : Cond) (e : VElt) (vd va vb : Reg) (km : KReg)
  /-- VAND (R207). Bitwise AND of vector lanes. -/
  | vand (c : CoreId) (cond : Cond) (e : VElt) (vd va vb : Reg) (km : KReg)
  /-- VOR (R207). Bitwise OR of vector lanes. -/
  | vor (c : CoreId) (cond : Cond) (e : VElt) (vd va vb : Reg) (km : KReg)
  /-- VXOR (R207). Bitwise exclusive OR of vector lanes. -/
  | vxor (c : CoreId) (cond : Cond) (e : VElt) (vd va vb : Reg) (km : KReg)
  /-- VSLL (R207). Shifts lanes left logically. -/
  | vsll (c : CoreId) (cond : Cond) (e : VElt) (vd va vb : Reg) (km : KReg)
  /-- VSRL (R207). Shifts lanes right logically. -/
  | vsrl (c : CoreId) (cond : Cond) (e : VElt) (vd va vb : Reg) (km : KReg)
  /-- VSRA (R207). Shifts lanes right arithmetically. -/
  | vsra (c : CoreId) (cond : Cond) (e : VElt) (vd va vb : Reg) (km : KReg)
  /-- VMIN (R207). Signed lane minimum. -/
  | vmin (c : CoreId) (cond : Cond) (e : VElt) (vd va vb : Reg) (km : KReg)
  /-- VMAX (R207). Signed lane maximum. -/
  | vmax (c : CoreId) (cond : Cond) (e : VElt) (vd va vb : Reg) (km : KReg)
  /-- VMINU (R207). Unsigned lane minimum. -/
  | vminu (c : CoreId) (cond : Cond) (e : VElt) (vd va vb : Reg) (km : KReg)
  /-- VMAXU (R207). Unsigned lane maximum. -/
  | vmaxu (c : CoreId) (cond : Cond) (e : VElt) (vd va vb : Reg) (km : KReg)
  /-- VCMPEQ (R198). Writes a mask of lanes where a equals b. -/
  | vcmpeq (c : CoreId) (cond : Cond) (e : VElt) (kd : KReg) (va vb : Reg) (km : KReg)
  /-- VCMPLT (R198). Writes a mask of lanes where a is signed-less than b. -/
  | vcmplt (c : CoreId) (cond : Cond) (e : VElt) (kd : KReg) (va vb : Reg) (km : KReg)
  /-- VCMPLTU (R198). Writes a mask of lanes where a is unsigned-less than b. -/
  | vcmpltu (c : CoreId) (cond : Cond) (e : VElt) (kd : KReg) (va vb : Reg) (km : KReg)
  /-- VFADD (R208). Adds binary32 lanes. -/
  | vfadd (c : CoreId) (cond : Cond) (vd va vb : Reg) (km : KReg)
  /-- VFSUB (R208). Subtracts binary32 lanes. -/
  | vfsub (c : CoreId) (cond : Cond) (vd va vb : Reg) (km : KReg)
  /-- VFMUL (R208). Multiplies binary32 lanes. -/
  | vfmul (c : CoreId) (cond : Cond) (vd va vb : Reg) (km : KReg)
  /-- VFFMA (R208). Fused multiply-add of binary32 lanes into vd. -/
  | vffma (c : CoreId) (cond : Cond) (vd va vb : Reg) (km : KReg)
  /-- VFMIN (R208). Binary32 lane minimum. -/
  | vfmin (c : CoreId) (cond : Cond) (vd va vb : Reg) (km : KReg)
  /-- VFMAX (R208). Binary32 lane maximum. -/
  | vfmax (c : CoreId) (cond : Cond) (vd va vb : Reg) (km : KReg)
  /-- VFCMPEQ (R208). Writes a mask of binary32 lanes that compare equal. -/
  | vfcmpeq (c : CoreId) (cond : Cond) (kd : KReg) (va vb : Reg) (km : KReg)
  /-- VFCMPLT (R208). Writes a mask of binary32 lanes that compare less. -/
  | vfcmplt (c : CoreId) (cond : Cond) (kd : KReg) (va vb : Reg) (km : KReg)
  /-- VFCMPLE (R208). Writes a mask of binary32 lanes that compare less or equal. -/
  | vfcmple (c : CoreId) (cond : Cond) (kd : KReg) (va vb : Reg) (km : KReg)
  /-- VFCVTSW (R208). Converts signed 32-bit integer lanes to binary32. -/
  | vfcvtsw (c : CoreId) (cond : Cond) (vd va : Reg) (km : KReg)
  /-- VFCVTWS (R208). Converts binary32 lanes to signed 32-bit integers. -/
  | vfcvtws (c : CoreId) (cond : Cond) (vd va : Reg) (km : KReg)
  /-- VDADD (R209). Adds decimal lanes, clearing mask bits of invalid or overflowing lanes. -/
  | vdadd (c : CoreId) (cond : Cond) (vd va vb : Reg) (km : KReg)
  /-- VDSUB (R209). Subtracts decimal lanes, clearing mask bits of invalid or overflowing lanes. -/
  | vdsub (c : CoreId) (cond : Cond) (vd va vb : Reg) (km : KReg)
  /-- VDTST (R210). Clears the mask bits of invalid decimal lanes. -/
  | vdtst (c : CoreId) (cond : Cond) (va : Reg) (km : KReg)
  /-- VDCMPEQ (R211). Writes a mask of decimal lanes that are equal. -/
  | vdcmpeq (c : CoreId) (cond : Cond) (kd : KReg) (va vb : Reg) (km : KReg)
  /-- VDCMPLT (R211). Writes a mask of decimal lanes where a is less than b. -/
  | vdcmplt (c : CoreId) (cond : Cond) (kd : KReg) (va vb : Reg) (km : KReg)
  /-- VDSRR (R212). Shifts and rounds decimal lanes by a power of ten. -/
  | vdsrr (c : CoreId) (cond : Cond) (vd va : Reg) (sh : BitVec 5) (km : KReg)
  /-- VDSUM (R213). Sums the valid decimal lanes into lane 0. -/
  | vdsum (c : CoreId) (cond : Cond) (vd va : Reg) (km : KReg)
  /-- VLD (R216). Loads contiguous binary elements into a w register. -/
  | vld (c : CoreId) (cond : Cond) (e : VElt) (vd gb : Reg) (km : KReg)
  /-- VLDD (R216). Loads contiguous decimal images into a w register. -/
  | vldd (c : CoreId) (cond : Cond) (vd gb : Reg) (km : KReg)
  /-- VST (R216). Stores contiguous binary elements from a w register. -/
  | vst (c : CoreId) (cond : Cond) (e : VElt) (vs gb : Reg) (km : KReg)
  /-- VSTD (R216). Stores contiguous decimal images from a w register. -/
  | vstd (c : CoreId) (cond : Cond) (vs gb : Reg) (km : KReg)
  /-- VGATHQ (R222). Gathers 16-byte binary elements from LDS by offset vector. -/
  | vgathq (c : CoreId) (cond : Cond) (vd gb vi : Reg) (km : KReg)
  /-- VGATHD (R222). Gathers 16-byte decimal images from LDS by offset vector. -/
  | vgathd (c : CoreId) (cond : Cond) (vd gb vi : Reg) (km : KReg)
  /-- VGATHW (R222). Gathers 4-byte elements from LDS by offset vector. -/
  | vgathw (c : CoreId) (cond : Cond) (vd gb vi : Reg) (km : KReg)
  /-- VSCATQ (R222). Scatters 16-byte binary elements into LDS. -/
  | vscatq (c : CoreId) (cond : Cond) (vs gb vi : Reg) (km : KReg)
  /-- VSCATD (R222). Scatters 16-byte decimal images into LDS. -/
  | vscatd (c : CoreId) (cond : Cond) (vs gb vi : Reg) (km : KReg)
  /-- VSCATW (R222). Scatters 4-byte elements into LDS. -/
  | vscatw (c : CoreId) (cond : Cond) (vs gb vi : Reg) (km : KReg)
  /-- VTRB (R214). Translates byte lanes through a 256-byte table held in vb. -/
  | vtrb (c : CoreId) (cond : Cond) (vd va vb : Reg) (km : KReg)
  /-- VSPLAT (R215). Writes ga into every processed lane. -/
  | vsplat (c : CoreId) (cond : Cond) (e : VElt) (vd ga : Reg) (km : KReg)
  /-- VMOVG (R215). Moves lane 0 of a w register into a general register. -/
  | vmovg (c : CoreId) (cond : Cond) (gd va : Reg)
  /-- VMOVW (R215). Moves a general register into lane 0 of a w register. -/
  | vmovw (c : CoreId) (cond : Cond) (vd ga : Reg)
  /-- KAND (R200). Bitwise AND of two mask registers. -/
  | kand (c : CoreId) (cond : Cond) (kd ka kb : KReg)
  /-- KOR (R200). Bitwise OR of two mask registers; KMOV is its alias. -/
  | kor (c : CoreId) (cond : Cond) (kd ka kb : KReg)
  /-- KXOR (R200). Bitwise exclusive OR of two mask registers. -/
  | kxor (c : CoreId) (cond : Cond) (kd ka kb : KReg)
  /-- KANDN (R200). ka AND NOT kb into a mask register. -/
  | kandn (c : CoreId) (cond : Cond) (kd ka kb : KReg)
  /-- KNOT (R200). Inverts a mask register. -/
  | knot (c : CoreId) (cond : Cond) (kd ka : KReg)
  /-- KMOVG (R200). Moves a 128-bit quarter of a mask into a general register. -/
  | kmovg (c : CoreId) (cond : Cond) (gd : Reg) (ka : KReg) (q : BitVec 2)
  /-- KMOVK (R200). Moves a general register into a 128-bit quarter of a mask. -/
  | kmovk (c : CoreId) (cond : Cond) (kd : KReg) (ga : Reg) (q : BitVec 2)
  /-- FADD (R225). Adds binary32 values with one rounding. -/
  | fadd (c : CoreId) (cond : Cond) (gd ga gb : Reg)
  /-- FSUB (R225). Subtracts binary32 values with one rounding. -/
  | fsub (c : CoreId) (cond : Cond) (gd ga gb : Reg)
  /-- FMUL (R225). Multiplies binary32 values with one rounding. -/
  | fmul (c : CoreId) (cond : Cond) (gd ga gb : Reg)
  /-- FFMA (R225). Fused multiply-add of binary32 values into gd. -/
  | ffma (c : CoreId) (cond : Cond) (gd ga gb : Reg)
  /-- FDIV (R225). Divides binary32 values in ESTIMATE mode. -/
  | fdiv (c : CoreId) (cond : Cond) (gd ga gb : Reg)
  /-- FSQRT (R225). Takes the binary32 square root in ESTIMATE mode. -/
  | fsqrt (c : CoreId) (cond : Cond) (gd ga : Reg)
  /-- FMIN (R230). Binary32 minimum with the NaN and zero rules. -/
  | fmin (c : CoreId) (cond : Cond) (gd ga gb : Reg)
  /-- FMAX (R230). Binary32 maximum with the NaN and zero rules. -/
  | fmax (c : CoreId) (cond : Cond) (gd ga gb : Reg)
  /-- FCMP (R231). Compares binary32 values and sets N, Z, C and V. -/
  | fcmp (c : CoreId) (cond : Cond) (ga gb : Reg)
  /-- FNEG (R225). Inverts the sign bit of a binary32 value. -/
  | fneg (c : CoreId) (cond : Cond) (gd ga : Reg)
  /-- FABS (R225). Clears the sign bit of a binary32 value. -/
  | fabs (c : CoreId) (cond : Cond) (gd ga : Reg)
  /-- FCVTSW (R237). Converts a scaled 32-bit integer to binary32. -/
  | fcvtsw (c : CoreId) (cond : Cond) (gd ga : Reg) (sh : BitVec 5)
  /-- FCVTWS (R238). Converts a scaled binary32 value to a 32-bit integer. -/
  | fcvtws (c : CoreId) (cond : Cond) (gd ga : Reg) (sh : BitVec 5)
  /-- FDSTEPD (R236). Starts a stepped binary32 division. -/
  | fdstepd (c : CoreId) (cond : Cond) (gd ga gb : Reg)
  /-- FDSTEPR (R236). Starts a stepped binary32 square root. -/
  | fdstepr (c : CoreId) (cond : Cond) (gd ga : Reg)
  /-- FDSTEP (R236). Develops two result bits of a stepped divide or root. -/
  | fdstep (c : CoreId) (cond : Cond) (gd : Reg)
  /-- FDSTEPF (R236). Rounds and finishes a stepped divide or root. -/
  | fdstepf (c : CoreId) (cond : Cond) (gd : Reg)
  /-- CMOV (R276). Copies ga with its tag into gd. -/
  | cmov (c : CoreId) (cond : Cond) (gd ga : Reg)
  /-- CGETBASE (R276). Writes the decoded base of ga. -/
  | cgetbase (c : CoreId) (cond : Cond) (gd ga : Reg)
  /-- CGETLEN (R276). Writes the decoded length of ga. -/
  | cgetlen (c : CoreId) (cond : Cond) (gd ga : Reg)
  /-- CGETTAG (R276). Writes the tag of ga and sets Z. -/
  | cgettag (c : CoreId) (cond : Cond) (gd ga : Reg)
  /-- CSETADDR (R276). Sets the ADDR of a capability, clearing the tag if unrepresentable. -/
  | csetaddr (c : CoreId) (cond : Cond) (gd ga gb : Reg)
  /-- CINCADDR (R276). Adds to the ADDR of a capability, clearing the tag if unrepresentable. -/
  | cincaddr (c : CoreId) (cond : Cond) (gd ga gb : Reg)
  /-- CSETB (R277). Narrows a capability's bounds to a requested length. -/
  | csetb (c : CoreId) (cond : Cond) (gd ga gb : Reg)
  /-- CANDP (R276). Removes permissions from a capability. -/
  | candp (c : CoreId) (cond : Cond) (gd ga gb : Reg)
  /-- CSETKEY (R278). Sets the storage key of a key-0 capability or keeps its key. -/
  | csetkey (c : CoreId) (cond : Cond) (gd ga gb : Reg)
  /-- CSEAL (R279). Seals a capability with an object type. -/
  | cseal (c : CoreId) (cond : Cond) (gd ga gb : Reg)
  /-- CUNSEAL (R280). Unseals a capability of a software object type. -/
  | cunseal (c : CoreId) (cond : Cond) (gd ga gb : Reg)
  /-- CTSTSUB (R281). Sets Z when ga is a subset of gb. -/
  | ctstsub (c : CoreId) (cond : Cond) (ga gb : Reg)
  /-- CPREC (R282). Writes the exponent and rounded length for a requested length. -/
  | cprec (c : CoreId) (cond : Cond) (gd gb : Reg)
  /-- CALGN (R282). Rounds an address down for a requested length. -/
  | calgn (c : CoreId) (cond : Cond) (gd ga gb : Reg)
  /-- CINVOKE (R283). Invokes a sealed code and data pair as a branch-and-link. -/
  | cinvoke (c : CoreId) (cond : Cond) (ga gb : Reg)
  /-- KEYW (R287). Writes the key byte of a global or attached frame. -/
  | keyw (c : CoreId) (cond : Cond) (ga gb : Reg)
  /-- KEYR (R287). Reads the key byte of a global or attached frame. -/
  | keyr (c : CoreId) (cond : Cond) (gd ga : Reg)
  /-- EVRAISE (R343). Raises a core doorbell or software flag event. -/
  | evraise (c : CoreId) (cond : Cond) (gb : Reg)
  /-- EVACK (R343). Ends service of an event on this core. -/
  | evack (c : CoreId) (cond : Cond) (gb : Reg)
  /-- EVCLR (R343). Discards a pending event on this core. -/
  | evclr (c : CoreId) (cond : Cond) (gb : Reg)
  /-- EVNEXT (R343). Returns the highest-priority pending native event of this core. -/
  | evnext (c : CoreId) (cond : Cond) (gd : Reg)
  /-- ESUB (R378). Submits an engine request descriptor and returns an acceptance result. -/
  | esub (c : CoreId) (cond : Cond) (gd ga gb : Reg)
  /-- JCOMMIT (R408). Commits a journal record payload and returns status and commit number. -/
  | jcommit (c : CoreId) (cond : Cond) (gd ga gb : Reg)
  /-- WPJOIN (R399). Joins this core with its partner into a witness pair. -/
  | wpjoin (c : CoreId) (cond : Cond) (gb : Reg)
  /-- WPLEAVE (R530). Dissolves the witness pair after comparison. -/
  | wpleave (c : CoreId) (cond : Cond)
  /-- MSUB (R453). Submits a mover descriptor to a channel. -/
  | msub (c : CoreId) (cond : Cond) (gd ga : Reg)
  /-- DPWAIT (R463). Holds issue until the data-port burst completes. -/
  | dpwait (c : CoreId) (cond : Cond)
  /-- XOP (R364). Runs an installed user micro-routine. -/
  | xop (c : CoreId) (cond : Cond) (n : BitVec 6) (gd ga gb : Reg)
  /-- MICRO_ADD (R356). Microword ADD. -/
  | microAdd (c : CoreId) (d a b : MOpnd) (w : Wf) (f : Bool)
  /-- MICRO_SUB (R356). Microword SUB. -/
  | microSub (c : CoreId) (d a b : MOpnd) (w : Wf) (f : Bool)
  /-- MICRO_ADC (R356). Microword ADC using mC. -/
  | microAdc (c : CoreId) (d a b : MOpnd) (w : Wf) (f : Bool)
  /-- MICRO_SBC (R356). Microword SBC using mC. -/
  | microSbc (c : CoreId) (d a b : MOpnd) (w : Wf) (f : Bool)
  /-- MICRO_AND (R356). Microword AND. -/
  | microAnd (c : CoreId) (d a b : MOpnd) (w : Wf) (f : Bool)
  /-- MICRO_OR (R356). Microword OR. -/
  | microOr (c : CoreId) (d a b : MOpnd) (w : Wf) (f : Bool)
  /-- MICRO_XOR (R356). Microword XOR. -/
  | microXor (c : CoreId) (d a b : MOpnd) (w : Wf) (f : Bool)
  /-- MICRO_ANDN (R356). Microword ANDN. -/
  | microAndn (c : CoreId) (d a b : MOpnd) (w : Wf) (f : Bool)
  /-- MICRO_SLL (R356). Microword logical shift left. -/
  | microSll (c : CoreId) (d a b : MOpnd) (w : Wf) (f : Bool)
  /-- MICRO_SRL (R356). Microword logical shift right. -/
  | microSrl (c : CoreId) (d a b : MOpnd) (w : Wf) (f : Bool)
  /-- MICRO_SRA (R356). Microword arithmetic shift right. -/
  | microSra (c : CoreId) (d a b : MOpnd) (w : Wf) (f : Bool)
  /-- MICRO_ROL (R356). Microword rotate left. -/
  | microRol (c : CoreId) (d a b : MOpnd) (w : Wf) (f : Bool)
  /-- MICRO_ROR (R356). Microword rotate right. -/
  | microRor (c : CoreId) (d a b : MOpnd) (w : Wf) (f : Bool)
  /-- MICRO_CLZ (R356). Microword count leading zeros. -/
  | microClz (c : CoreId) (d a : MOpnd) (w : Wf) (f : Bool)
  /-- MICRO_POPC (R356). Microword population count. -/
  | microPopc (c : CoreId) (d a : MOpnd) (w : Wf) (f : Bool)
  /-- DVAL (R356). Sets mDX when either decimal operand is invalid. -/
  | dval (c : CoreId) (a b : MOpnd)
  /-- DADDX (R356). Microword decimal add. -/
  | daddx (c : CoreId) (d a b : MOpnd)
  /-- DSUBX (R356). Microword decimal subtract. -/
  | dsubx (c : CoreId) (d a b : MOpnd)
  /-- DSL1 (R356). Shifts a decimal value one digit left. -/
  | dsl1 (c : CoreId) (d a : MOpnd)
  /-- DSR1 (R356). Shifts a decimal value one digit right, truncated. -/
  | dsr1 (c : CoreId) (d a : MOpnd)
  /-- DMD (R356). Multiplies a decimal value by one digit. -/
  | dmd (c : CoreId) (d a b : MOpnd)
  /-- DCMPM (R356). Compares decimal magnitudes into the micro-flags. -/
  | dcmpm (c : CoreId) (a b : MOpnd)
  /-- DSGN (R356). Rewrites a decimal sign to the preferred code, optionally inverted. -/
  | dsgn (c : CoreId) (d a b : MOpnd)
  /-- GETB (R356). Extracts a byte. -/
  | getb (c : CoreId) (d a b : MOpnd)
  /-- PUTB (R356). Inserts a byte. -/
  | putb (c : CoreId) (d a b : MOpnd)
  /-- GETN (R356). Extracts a nibble. -/
  | getn (c : CoreId) (d a b : MOpnd)
  /-- PUTN (R356). Inserts a nibble. -/
  | putn (c : CoreId) (d a b : MOpnd)
  /-- SREG (R358). Reads an allowed system register into a micro-operand. -/
  | sreg (c : CoreId) (d : MOpnd) (sr : BitVec 6)
  /-- MICRO_ADDI (R355). Microword add immediate. -/
  | microAddi (c : CoreId) (d a : MOpnd) (f : Bool) (imm : BitVec 14)
  /-- MICRO_ANDI (R355). Microword AND immediate. -/
  | microAndi (c : CoreId) (d a : MOpnd) (f : Bool) (imm : BitVec 14)
  /-- MICRO_ORI (R355). Microword OR immediate. -/
  | microOri (c : CoreId) (d a : MOpnd) (f : Bool) (imm : BitVec 14)
  /-- SHI (R355). Microword shift or rotate by an immediate amount. -/
  | shi (c : CoreId) (d a : MOpnd) (imm : BitVec 14)
  /-- LIT (R355). Loads a sign-extended literal. -/
  | lit (c : CoreId) (d : MOpnd) (imm : BitVec 14)
  /-- MLD (R357). Microword load from LDS or LIS. -/
  | mld (c : CoreId) (d cc o : MOpnd) (sz : BitVec 3)
  /-- MST (R357). Microword store to LDS or LIS. -/
  | mst (c : CoreId) (d cc o : MOpnd) (sz : BitVec 3)
  /-- MCHK (R357). Checks a range against a capability before any write. -/
  | mchk (c : CoreId) (d cc o : MOpnd) (perm : BitVec 3)
  /-- ADV (R357). Advances a capability's ADDR, keeping its tag. -/
  | adv (c : CoreId) (d a b : MOpnd)
  /-- SETF (R358). Copies selected micro-flags into STATUS flags. -/
  | setf (c : CoreId) (mask : BitVec 6)
  /-- MICRO_BR (R359). Conditional microbranch on the micro-flags. -/
  | microBr (c : CoreId) (cond : Cond) (target : BitVec 15)
  /-- LOOP (R359). Decrements a u register and branches while nonzero. -/
  | loop (c : CoreId) (u : MOpnd) (target : BitVec 15)
  /-- CALL (R359). Calls a micro-subroutine, setting LINK. -/
  | call (c : CoreId) (target : BitVec 15)
  /-- MICRO_RET (R359). Returns through LINK, or raises ILLEGAL when LINKV = 0. -/
  | microRet (c : CoreId)
  /-- YIELD (R360). Marks an interruption point inside a routine. -/
  | yield (c : CoreId) (dn : Bool)
  /-- EXIT (R355). Ends the microcoded instruction. -/
  | exit (c : CoreId)
  /-- TRAP_ILLEGAL (R358). TRAP 0x01 raises ILLEGAL precisely. -/
  | trapIllegal (c : CoreId)
  /-- TRAP_ARITHMETIC (R358). TRAP 0x10 to 0x14 records an enabled arithmetic cause. -/
  | trapArithmetic (c : CoreId) (cause : BitVec 8)
  /-- VECTOR_ENTRY_BEATS (R78). A queued vector entry starts its beats once the entry before it has finished. -/
  | vectorEntryBeats (c : CoreId)
  /-- VECTOR_ENTRY_COMPLETE (R203). A queued vector entry's results become complete L + X after its last beat. -/
  | vectorEntryComplete (c : CoreId)
  /-- HELD_RAISE_DELIVERY (R336). A raise held because every target was passed over is delivered when a target becomes available. -/
  | heldRaiseDelivery (ev : EventId)
  /-- TIMER_FIRE (R344). A core timer reaches its compare value and raises its event. -/
  | timerFire (c : CoreId)
  /-- ENGINE_QUEUE_ENTRY (R379). An accepted request enters its engine's queue three cycles after acceptance. -/
  | engineQueueEntry (e : EngineId)
  /-- ENGINE_FETCH (R382). The engine reads and checks the descriptor and input when the fetch stage is free. -/
  | engineFetch (e : EngineId)
  /-- ENGINE_WRITEBACK (R382). The engine writes output, STATUS and OUTLEN after compute ends. -/
  | engineWriteback (e : EngineId)
  /-- ENGINE_COMPLETION (R528). In the last write-back cycle the request completes and its completion event or doorbell is raised. -/
  | engineCompletion (e : EngineId)
  /-- ECDSA_P256_SIGN (R384). Signs a digest with a P-256 private key. -/
  | ecdsaP256Sign (e : EngineId)
  /-- ECDSA_P256_VERIFY (R384). Verifies a P-256 signature over a digest. -/
  | ecdsaP256Verify (e : EngineId)
  /-- ECDSA_P384_SIGN (R384). Signs a digest with a P-384 private key. -/
  | ecdsaP384Sign (e : EngineId)
  /-- ECDSA_P384_VERIFY (R384). Verifies a P-384 signature over a digest. -/
  | ecdsaP384Verify (e : EngineId)
  /-- ED25519_SIGN (R384). Signs a message with Ed25519. -/
  | ed25519Sign (e : EngineId)
  /-- ED25519_VERIFY (R384). Verifies an Ed25519 signature. -/
  | ed25519Verify (e : EngineId)
  /-- ECDH_P256 (R384). Derives a P-256 shared secret into a new SECRET key. -/
  | ecdhP256 (e : EngineId)
  /-- ECDH_P384 (R384). Derives a P-384 shared secret into a new SECRET key. -/
  | ecdhP384 (e : EngineId)
  /-- KEY_PAIR_GENERATION_P256 (R532). Generates a P-256 key pair into the key store. -/
  | keyPairGenerationP256 (e : EngineId)
  /-- KEY_PAIR_GENERATION_P384 (R532). Generates a P-384 key pair into the key store. -/
  | keyPairGenerationP384 (e : EngineId)
  /-- KEY_PAIR_GENERATION_ED25519 (R532). Generates an Ed25519 key pair into the key store. -/
  | keyPairGenerationEd25519 (e : EngineId)
  /-- RSA_SIGN_2048 (R384). RSA-2048 CRT signature with blinding. -/
  | rsaSign2048 (e : EngineId)
  /-- RSA_SIGN_3072 (R384). RSA-3072 CRT signature with blinding. -/
  | rsaSign3072 (e : EngineId)
  /-- RSA_SIGN_4096 (R384). RSA-4096 CRT signature with blinding. -/
  | rsaSign4096 (e : EngineId)
  /-- RSA_VERIFY_2048 (R384). RSA-2048 signature verification with e = 65537. -/
  | rsaVerify2048 (e : EngineId)
  /-- RSA_VERIFY_3072 (R384). RSA-3072 signature verification with e = 65537. -/
  | rsaVerify3072 (e : EngineId)
  /-- RSA_VERIFY_4096 (R384). RSA-4096 signature verification with e = 65537. -/
  | rsaVerify4096 (e : EngineId)
  /-- IDSIGN (R387). Signs a 48-byte digest with the die identity key on the housekeeping engine. -/
  | idsign
  /-- AES_ECB (R385). AES-ECB encryption or decryption of a payload. -/
  | aesEcb (e : EngineId)
  /-- AES_CBC (R385). AES-CBC encryption or decryption of a payload. -/
  | aesCbc (e : EngineId)
  /-- AES_GCM (R385). AES-GCM authenticated encryption or decryption. -/
  | aesGcm (e : EngineId)
  /-- AES_CMAC (R385). Computes or verifies an AES-CMAC. -/
  | aesCmac (e : EngineId)
  /-- TDES_ECB (R385). TDES-ECB encryption or decryption. -/
  | tdesEcb (e : EngineId)
  /-- TDES_CBC (R385). TDES-CBC encryption or decryption. -/
  | tdesCbc (e : EngineId)
  /-- SHA_256 (R385). Computes a SHA-256 digest. -/
  | sha256 (e : EngineId)
  /-- SHA_384 (R385). Computes a SHA-384 digest. -/
  | sha384 (e : EngineId)
  /-- SHA3_256 (R385). Computes a SHA3-256 digest. -/
  | sha3256 (e : EngineId)
  /-- HMAC_SHA_256 (R385). Computes or verifies an HMAC-SHA-256. -/
  | hmacSha256 (e : EngineId)
  /-- HMAC_SHA_384 (R385). Computes or verifies an HMAC-SHA-384. -/
  | hmacSha384 (e : EngineId)
  /-- PIN_TRANSLATION (R386). Decrypts, checks, reformats and re-encrypts a PIN block. -/
  | pinTranslation (e : EngineId)
  /-- RAND (R385). Writes n random bytes from the DRBG. -/
  | rand (e : EngineId)
  /-- KGEN (R390). Generates a new symmetric key in the key store. -/
  | kgen (e : EngineId)
  /-- KIMP (R390). Unwraps an AES-KWP key into the key store. -/
  | kimp (e : EngineId)
  /-- KPUB (R390). Imports a plain public key for verification. -/
  | kpub (e : EngineId)
  /-- KEXP (R391). Exports a key wrapped under the device master key. -/
  | kexp (e : EngineId)
  /-- KRST (R391). Restores a key from a KEXP export. -/
  | krst (e : EngineId)
  /-- KDEL (R390). Deletes a key and advances its slot generation. -/
  | kdel (e : EngineId)
  /-- ZEROISATION (R392). Marks queued requests, overwrites the key store, advances EPOCH and erases the DMK. -/
  | zeroisation
  /-- KSCTL_ZERO (R397). Base-level write of 1 to KSCTL.ZERO starts zeroisation. -/
  | ksctlZero
  /-- DMK_ERASE (R393). A held DMK erase is performed when the MRAM write inhibit ends. -/
  | dmkErase
  /-- DRBG_RESEED (R394). An engine's DRBG instance reseeds when 384 bits of entropy wait for it. -/
  | drbgReseed (e : EngineId)
  /-- DRBGCTL_RESTART (R397). Base-level write that sets TESTING and reruns the DRBG start-up test. -/
  | drbgctlRestart
  /-- DRBG_STARTUP_TEST (R395). The entropy start-up test completes and sets READY or FAILED. -/
  | drbgStartupTest (first : Bool) (rest : List Bool)
  /-- WPJOIN_TIMEOUT (R399). WPJOIN ends with Z = 0 when its cycle count passes without a join. -/
  | wpjoinTimeout (c : CoreId)
  /-- WITNESS_ACT_COMPARE (R91). The checker compares the even core's held act with the odd core's act 2 cc later and performs it once. -/
  | witnessActCompare (n : PairId)
  /-- COMMIT_QUEUE_ENTRY (R410). An accepted commit enters the journal commit queue. -/
  | commitQueueEntry
  /-- PAYLOAD_FETCH (R411). The journal unit starts fetching a commit's payload blocks under the key rule. -/
  | payloadFetch
  /-- PAYLOAD_FETCH_END (R411). A payload fetch ends, updating JFDONE and reporting any failure. -/
  | payloadFetchEnd
  /-- ENTRY_HASH (R412). The unit starts hashing the next entry and assigns its SEQ. -/
  | entryHash (disagree : Bool)
  /-- ENTRY_CHAINING (R412). The hash ends and C(k) and JHEAD are written. -/
  | entryChaining
  /-- ENTRY_RELEASE (R416). PROD advances past a written entry. -/
  | entryRelease
  /-- CHECKPOINT_TIMER (R417). 100 ms after the last checkpoint a checkpoint falls due. -/
  | checkpointTimer
  /-- JCTL_CKPT (R417). Base-level write to JCTL.CKPT makes a checkpoint due. -/
  | jctlCkpt
  /-- JCTL_EN (R422). Base-level write of JCTL.EN starts the journal. -/
  | jctlEn
  /-- CHAIN_START (R422). After DRBG ready and the head-slot scan the unit makes GENESIS or RESUME. -/
  | chainStart
  /-- JRCONS (R414). A store of the drainer's consumed count, which may admit waiting unit entries. -/
  | jrcons (v : BitVec 64)
  /-- CHECKPOINT_DIGEST (R419). After chaining, the unit forms the SHA-384 digest and submits IDSIGN. -/
  | checkpointDigest
  /-- CHECKPOINT_SIGNATURE_WRITE (R419). The IDSIGN result is written into the entry and JSGSEQ is updated. -/
  | checkpointSignatureWrite
  /-- HEAD_PART_WRITE (R420). The unit starts an MRAM head-part write of a checkpoint. -/
  | headPartWrite
  /-- HEAD_PART_WRITE_END (R420). The head part is read back, raising event 321 or skipping a failed slot. -/
  | headPartWriteEnd (ok : Bool)
  /-- SIGNATURE_PART_WRITE (R420). The unit starts an MRAM signature-part write. -/
  | signaturePartWrite
  /-- SIGNATURE_PART_WRITE_END (R420). The signature part is read back and rewritten elsewhere on failure. -/
  | signaturePartWriteEnd (ok : Bool)
  /-- MOVER_DESCRIPTOR_START (R454). A channel reads and checks its next descriptor. -/
  | moverDescriptorStart (ch : ChannelId)
  /-- MOVER_BURST (R456). A channel issues one burst after applying the key rule. -/
  | moverBurst (ch : ChannelId) (reply : HostReply)
  /-- MOVER_COMPLETION (R458). STATUS and MOVED are written and the channel event raised. -/
  | moverCompletion (ch : ChannelId)
  /-- MCHCFG_EN_CLEAR (R451). Clearing a channel's EN resets the channel. -/
  | mchcfgEnClear (ch : ChannelId)
  /-- DPCTL_GO (R462). MTS to DPCTL with GO starts a data-port read or write burst. -/
  | dpctlGo (c : CoreId) (cond : Cond) (g : Reg)
  /-- DP_RESPONSE (R463). The burst response crosses back and BUSY falls. -/
  | dpResponse (c : CoreId)
  /-- DPDATA_READ (R464). MFS of DPDATA takes the next element from the port buffer. -/
  | dpdataRead (c : CoreId) (cond : Cond) (g : Reg)
  /-- DPDATA_WRITE (R464). MTS of DPDATA appends an element to the port buffer. -/
  | dpdataWrite (c : CoreId) (cond : Cond) (g : Reg)
  /-- MICRO_WATCHDOG (R362). A routine reaching 4,096 steps without YIELD is stopped and enters base level. -/
  | microWatchdog (c : CoreId)
  /-- XOP_LOADER_GO (R373). A write of 1 to GO starts an XOP manifest load and its checks. -/
  | xopLoaderGo
  /-- XOP_LOAD_VERIFY_RESULT (R373). The loader receives the signature result and completes its remaining checks. -/
  | xopLoadVerifyResult
  /-- XOP_WORD_WRITE (R375). A microword is written into every target core, held while the core runs XOP microwords. -/
  | xopWordWrite
  /-- XOP_LOAD_INSTALL (R375). XOPENT, REV and BUSY are written in one cycle, completing the load. -/
  | xopLoadInstall
  /-- STORE_BUFFER_DRAIN (R73). The oldest LDS store-buffer entry drains into LDS. -/
  | storeBufferDrain (c : CoreId)
  /-- GLOBAL_ACCESS_PERFORM (R255). A core's global or window access is performed when the rotation connects its position. -/
  | globalAccessPerform (c : CoreId)
  /-- GLOBAL_LOAD_COMPLETE (R256). A global load's result is written 104 or 106 cc after issue. -/
  | globalLoadComplete (c : CoreId)
  /-- BLOCK_READ_RETURN (R259). A 64-byte block read of MVBL or a vector instruction returns its data 104 cc after it is sent. -/
  | blockReadReturn (c : CoreId)
  /-- SCRUB_ROW_DUE (R262). Every INTERVAL fabric cycles each scrubber makes its next row due. -/
  | scrubRowDue
  /-- SCRUB_ROW (R262). A granted scrub reads, corrects and writes back one row. -/
  | scrubRow (u : ScrubberId) (upsets : List Upset)
  /-- SCRUBBER_STARVED (R263). A row due for 10^9 fabric cycles makes its scrubber starved. -/
  | scrubberStarved (u : ScrubberId)
  /-- ECCADDR_VALID_CLEAR (R270). Clearing ECCADDR.VALID releases MCHK_N. -/
  | eccaddrValidClear
  /-- NATIVE_ENTRY (R317). A fault or accepted event enters the native handler through IVEC and the frame ring. -/
  | nativeEntry (c : CoreId) (word : BitVec 32)
  /-- BASE_ENTRY (R317). A cause delivered to base level saves state in a base frame and enters the base entry. -/
  | baseEntry (c : CoreId)
  /-- CRHOLD (R329). A store to CRHOLD changes the reset hold of cores. -/
  | crhold (v : BitVec 64)
  /-- CORE_RESET_HOLD_APPLIED (R330). The hold reaches a core and resets it. -/
  | coreResetHoldApplied (c : CoreId)
  /-- CORE_RESET_RELEASE (R331). A released core restarts at base level at the reset address. -/
  | coreResetRelease (c : CoreId)
  /-- CFGLOCK_LOCK (R109). Setting the configuration lock freezes LK fields and applies DIVMODE. -/
  | cfglockLock
  /-- HOST_SLOT_WRITE (R434). A host write through BAR2 into ring slots is performed or discarded per slot credit. -/
  | hostSlotWrite (place : SlotPlace) (bytes : List Byte)
  /-- IDB (R435). A host doorbell write is accepted or discarded and the arrival classified. -/
  | idb (r : RingId) (slot : BitVec 6) (len : BitVec 12)
  /-- ADMISSION_WINDOW_START (R437). At each window start the ring state changes and WCNT is cleared. -/
  | admissionWindowStart
  /-- ARRIVE (R440). A core load of ARRIVE returns and removes the oldest admitted entry. -/
  | arrive (c : CoreId) (r : RingId) (gd : Reg)
  /-- EPOST (R441). A core store posts a response to an egress channel, or is refused. -/
  | epost (r : RingId) (v : BitVec 64)
  /-- EGRESS_TRANSFER_START (R442). An egress channel starts transferring a post. -/
  | egressTransferStart (x : EgressId)
  /-- EGRESS_HANDOVER (R442). The transfer ends: response, completion record and credit mirror are sent and the credit returns. -/
  | egressHandover (x : EgressId)
  /-- BUSY_RESPONSE_START (R439). The busy responder starts writing a busy response into the egress slot. -/
  | busyResponseStart
  /-- BUSY_HANDOVER (R439). The busy response is handed over with KIND 1. -/
  | busyHandover
  /-- RCTL_ENABLE (R432). Host sets RCTL.EN, enabling the ring and granting all credits. -/
  | rctlEnable (r : RingId) (mir : Bool)
  /-- RING_RESET (R444). A ring is reset: credits, queue and ESEQ cleared and RGEN advanced. -/
  | ringReset (r : RingId)
  /-- RCTL_DISABLE (R444). Host clears RCTL.EN, resetting the ring. -/
  | rctlDisable (r : RingId) (mir : Bool)
  /-- FUNCTION_LEVEL_RESET (R444). A function-level reset resets the function's rings and raises event 388. -/
  | functionLevelReset (e : FlrEvent)
  /-- VF_ENABLE_CLEAR (R444). Clearing VF Enable resets the VF rings. -/
  | vfEnableClear
  /-- LINK_STATE_CHANGE (R448). Link down or hot reset resets every ring and raises event 384. -/
  | linkStateChange (up : Bool) (width : BitVec 5) (speed : BitVec 4)
  /-- PCIE_PERST (R480). PCIE_PERST_N resets the host-link domain only. -/
  | pciePerst
  /-- TLP_ERROR (R448). A received TLP error is handled and logged under AER. -/
  | tlpError (k : TlpError)
  /-- HOST_APERTURE_ACCESS (R431). A host access through BAR4 reaches attached memory or is refused; the host's other loads and stores are
carried by this command too (R428-R430). -/
  | hostApertureAccess (place : HostPlace) (access : HostAccess)
  /-- MBH2D (R445). Host writes a mailbox length, setting BUSY and raising event 389. -/
  | mbh2d (len : BitVec 13)
  /-- MBD2H (R445). Base level writes a reply length, clearing BUSY and sending vector 0. -/
  | mbd2h (len : BitVec 13)
  /-- DOE_REQUEST (R446). A complete DOE request on PF0 raises event 390. -/
  | doeRequest (len : Nat)
  /-- IDE_STREAM_ERROR (R447). An IDE integrity failure discards the TLP and makes the stream insecure. -/
  | ideStreamError (k : StreamId)
  /-- CLKCTL_LEAN (R476). A store requesting a mode change is accepted or refused. -/
  | clkctlLean (c : CoreId) (lean : Bool)
  /-- CLOCK_MODE_SWITCH (R476). The divider changes at the first even cycle after the accepted store. -/
  | clockModeSwitch
  /-- CLOCK_LOSS (R473). Loss of SYSCLK for 1 us or of PLL lock applies a device reset. -/
  | clockLoss
  /-- TSPPS_EDGE (R477). A TSPPS edge clears NS and advances or loads SEC. -/
  | tsppsEdge (ticks : Nat)
  /-- TAI_SECOND_WRAP (R477). NS reaching 10^9 without a TSPPS edge wraps and advances SEC. -/
  | taiSecondWrap
  /-- SYNC_TIMEOUT (R478). 1.1 s without a TSPPS edge clears SYNC. -/
  | syncTimeout
  /-- SUPPLY_WARNING (R481). A rail falls through its warning level, asserting SAGWARN_N and its events. -/
  | supplyWarning (rail : WarnRail)
  /-- SUPPLY_WARNING_RELEASE (R481). A rail rises through its warning release level. -/
  | supplyWarningRelease (rail : WarnRail)
  /-- MRAM_WRITE_INHIBIT (R481). VDD_MRAM falls through its inhibit level, inhibiting MRAM and fuse writes. -/
  | mramWriteInhibit
  /-- MRAM_INHIBIT_END (R421). The inhibit ends and deferred checkpoints fall due. -/
  | mramInhibitEnd
  /-- SUPPLY_RESET (R481). A brown-out or VDD_IO reset threshold is crossed and a device reset becomes due. -/
  | supplyReset (rail : ResetRail)
  /-- POWER_ON_RESET (R481). VDD_AON below its power-on level resets the whole device. -/
  | powerOnReset
  /-- RST_N (R480). An assertion of RST_N applies a device reset. -/
  | rstN (ns : Nat)
  /-- DEVRST (R486). A store of the key value schedules a device reset 1 us later. -/
  | devrst (v : BitVec 32)
  /-- DEVICE_RESET (R487). The inhibit is asserted and the device reset applied. -/
  | deviceReset
  /-- BOOT_SEQUENCE (R489). On device reset release the always-on domain and boot ROM run start-up. -/
  | bootSequence (inp : BootInput)
  /-- SUPPLY_TELEMETRY_TICK (R533). Every 10 us the supply voltages in SUPSTAT are updated. -/
  | supplyTelemetryTick (core io mram : BitVec 16)
  /-- THERMAL_SAMPLE (R485). Every 10 us TMAX is updated and warning or trip levels are evaluated. -/
  | thermalSample (raw : List (BitVec 16))
  /-- TAMPER_INPUT (R392). A tamper input asserted starts zeroisation and raises event 339. -/
  | tamperInput (pin : TamperId)
  /-- TRIMWR (R496). Writing the key starts a rewrite of the trim page. -/
  | trimwr (v : BitVec 32)
  /-- TRIM_REWRITE_COMPLETE (R496). The 64-row trim page rewrite finishes. -/
  | trimRewriteComplete
  /-- OKHPROG_GO (R494). Base-level write of GO starts programming the OKH fuses. -/
  | okhprogGo
  /-- OKH_PROGRAMMING_COMPLETE (R494). OKH fuse programming ends after 2 ms with its RESULT. -/
  | okhProgrammingComplete
  /-- HBM_REFRESH_RATE_CHANGE (R468). A stack crossing 85 degrees changes its refresh interval and raises its event. -/
  | hbmRefreshRateChange (k : StackId) (hot : Bool)
  /-- HBM_PATROL_PASS_COMPLETE (R468). A patrol-scrub pass of a stack ends and raises its event. -/
  | hbmPatrolPassComplete (k : StackId)
  /-- HBM_PHY_ERROR (R468). An uncorrectable PHY error raises its event and fails the stack's accesses. -/
  | hbmPhyError (k : StackId)
  /-- UARTTX (R516). Base level appends a byte to the UART transmit FIFO. -/
  | uarttx (b : Byte)
  /-- UARTRX (R516). A load returns and removes the oldest received UART byte. -/
  | uartrx (c : CoreId) (gd : Reg)
  /-- UART_BYTE_RECEIVED (R516). A byte arrives on UART_RX and enters the receive FIFO. -/
  | uartByteReceived (b : Byte) (stopHigh : Bool)
  /-- UART_BYTE_SENT (R516). A byte finishes on UART_TX. -/
  | uartByteSent
  /-- SMBUS_BLOCK_WRITE (R517). A management controller MCTP packet is received and queued. -/
  | smbusBlockWrite (bytes : List Byte) (pecOk : Bool)
  /-- SMBUS_BLOCK_READ (R517). The controller reads the offered packet, clearing BUSY when complete. -/
  | smbusBlockRead (whole : Bool)
  /-- SMBUS_ALERT_RESPONSE (R517). The controller reads the alert response address and receives 0x4E. -/
  | smbusAlertResponse
  /-- SMBRXPOP (R517). Base level removes the oldest received packet. -/
  | smbrxpop
  /-- SMBTXCTL_GO (R517). Base level offers a packet, asserting SMB_ALERT_N. -/
  | smbtxctlGo (len : BitVec 7)
  /-- QSPICTL_GO (R518). Base level starts a Quad-SPI flash read into the global scratchpad. -/
  | qspictlGo
  /-- QSPI_READ_COMPLETE (R518). The last byte is performed, BUSY clears and event 347 is raised. -/
  | qspiReadComplete (bytes : List Byte)
  /-- GPIO_INPUT_CHANGE (R514). A GPIO pin level change reaches GPIOIN and its event line. -/
  | gpioInputChange (pin : GpioId) (level : Bool)
  /-- TAP_RESET (R519). The JTAG TAP controller is reset. -/
  | tapReset
  /-- IDCODE (R521). JTAG instruction selecting the 32-bit identification register. -/
  | idcode
  /-- SAMPLE_PRELOAD (R520). JTAG instruction sampling or preloading the boundary scan. -/
  | samplePreload (bits : List Bool)
  /-- EXTEST (R520). JTAG instruction driving the pins from the boundary scan. -/
  | extest
  /-- EXTEST_PULSE (R520). JTAG IEEE 1149.6 pulse test on AC-coupled lanes. -/
  | extestPulse
  /-- EXTEST_TRAIN (R520). JTAG IEEE 1149.6 train test on AC-coupled lanes. -/
  | extestTrain
  /-- CLAMP (R520). JTAG instruction holding the pins with bypass selected. -/
  | clamp
  /-- HIGHZ (R520). JTAG instruction placing the outputs in high impedance. -/
  | highz
  /-- IDDATA (R522). JTAG instruction shifting out the identity block header. -/
  | iddata
  /-- BYPASS (R520). JTAG instruction selecting the 1-bit bypass register. -/
  | bypass
  /-- REGISTER_WRITE (R14). A write to a register that has no behaviour of its own, under its access code. -/
  | registerWrite (who : Writer) (addr : Addr) (size : RegSize) (v : TWord)
  /-- CONTINUOUS_TEST_FAILURE (R396). A continuous health test of the entropy source fails at run time, setting STATE := FAILED, setting RCT or APT, incrementing FAILCNT and raising event 343. -/
  | continuousTestFailure (first : Bool) (rest : List Bool)
  /-- TSCLK_LOSS (R478). TSCLK stops for 1 us, so the TAI counter stands still, TSOK falls and SYNC := 0. -/
  | tsclkLoss
  /-- TSCLK_RETURN (R478). TSCLK edges resume, so TSOK := 1 and the TAI counter counts again. -/
  | tsclkReturn
  /-- PATROL_SCRUB (R468). The HBM3E patrol scrub reads a 32-byte unit, corrects single symbols in memory, counts corrected errors in CECNT and raises the corrected-error threshold or uncorrectable events. -/
  | patrolScrub (k : StackId) (off : BitVec 48) (upsets : List Upset)
  /-- VF_ENABLE_SET (R427). The host sets VF Enable with NumVFs, which brings VF ring pairs 1 to NumVFs into existence. -/
  | vfEnableSet (n : BitVec 6)
  deriving DecidableEq, Repr

end Sys2Proof
end

