-- ==== Sys2Proof/Machine/State.lean ====
section
/-! DEFINITION. The state of the device as plain data: every register, queue, buffer, counter and mode
the spec names, each under the name of its rule, and the state after reset. -/
namespace Sys2Proof.Machine

/-! ## Writes in flight and core sequencing -/

/-- What a write in flight changes when it completes (R55, R62, R124, R233). -/
inductive WriteWhat where
  /-- a general register -/
  | reg (r : Reg) (v : TWord)
  /-- the STATUS flags named by the mask, in the order of STATUS[5:0] -/
  | flags (mask vals : BitVec 6)
  /-- a system register, as an MTS leaves it (R56) -/
  | sys (sr : BitVec 6) (v : TWord)
  /-- flags ORed into FPFLAGS (R233) -/
  | fpOr (bits : BitVec 5)
  deriving DecidableEq, Repr

/-- A write in flight: its completion cycle and its place in the order of issue (R55, R60). -/
structure PendingWrite where
  due : Nat
  seq : Nat
  what : WriteWhat
  deriving DecidableEq, Repr

/-- A branch whose delay slots have not all issued (R66, R119, R283). `left` slots remain; `taken` is its
outcome, `target` the new PCC, `invoked` the data capability of a CINVOKE. -/
structure Branch where
  left : Nat
  taken : Bool
  target : TWord
  invoked : Option TWord
  seq : Nat
  deriving DecidableEq, Repr

/-- The mode shadow of an MTS to STATUS: the value written and the shadow instructions left (R81). -/
structure Shadow where
  value : BitVec 32
  left : Nat
  deriving DecidableEq, Repr

/-- A repeat in progress (R178): the count register, the iterations left, whether iteration 0 is still to
issue, and the case of a count of 0. -/
structure Repeat where
  gc : Reg
  left : BitVec 32
  fresh : Bool
  deriving DecidableEq, Repr

/-- A recorded imprecise cause: the code, the slot before which it is taken, the cycle after which it can be taken, and
XADDR (R219, R306). -/
structure Imprecise where
  code : BitVec 8
  due : Nat
  after : Nat
  xaddr : Addr
  deriving DecidableEq, Repr

/-- A MACHINE_CHECK that is due from a cycle on: BINFO.INFO and BADDR (R304, R268). -/
structure McDue where
  cycle : Nat
  info : BitVec 32
  baddr : Addr
  deriving DecidableEq, Repr

/-- An XOP under way (R349, R353, R354): its word and register fields, the micro-registers, the micro-flags in the order of
STATUS[5:0] with mOV for DV, LINK, the address of the next microword, the cycle of its issue, the steps executed, the step
counter of R362, the loads of u registers not yet visible with their steps, whether it has recorded a cause, and ARITH. -/
structure Micro where
  word : BitVec 32
  gd : Reg
  ga : Reg
  gb : Reg
  u : Vector Word 16
  flags : BitVec 6
  link : BitVec 15
  linkv : Bool
  upc : BitVec 15
  start : Nat
  steps : Nat
  watch : Nat
  loads : List (Nat × Fin 16 × Word)
  caused : Bool
  arith : Bool
  deriving DecidableEq, Repr

/-- An exception that is due: its native code, the address XPC names, XADDR, XINFO, whether it is a fault (an
accepted event is none, R300), and whether XPC names the IMM prefix of the instruction (R527). -/
structure Cause where
  code : BitVec 8
  xpc : Addr
  xaddr : Addr
  xinfo : BitVec 64
  fault : Bool
  back : Bool
  deriving DecidableEq, Repr

/-- The string instructions (R151, R152). -/
inductive StrOp where
  | mvb | clcb | scb | trb | trt
  | u8v (mode : BitVec 2)
  | edit (mark : Bool)
  /-- MVBL from LDS or the LIS to the global scratchpad (R167): the key and the register that its block writes are checked under -/
  | mvblOut (key : BitVec 4) (reg : Nat)
  /-- FLDW (R187): the message's length, BMENC, FIELD and POS, and the bitmaps once it has read them -/
  | fldw (len enc fld pos : Nat) (bitmaps : Option Nat)
  deriving DecidableEq, Repr

/-- A string instruction under way: its registers and the values that describe the work that remains (R155, R156), the units
that its count has passed beyond them, what lengthens its issue cost at its end (R147), and the level that it began at. -/
structure StrJob where
  op : StrOp
  gd : Reg
  ga : Reg
  gb : Reg
  dv : TWord
  av : TWord
  bv : TWord
  ahead : Nat
  extra : Nat
  legacy : Bool
  base : Bool
  deriving DecidableEq, Repr

/-- A string instruction of a core at an interruption point (R166, R167, R171-R174). -/
inductive StrCont where
  /-- Work is left. -/
  | work (j : StrJob)
  /-- It has its final values; the cycles of the points that its count still has, with its end as the last. -/
  | spent (points : List Nat)
  /-- A block of an MVBL from the global scratchpad has been written and others are outstanding. -/
  | block
  deriving DecidableEq, Repr

/-- Sequencing state of a core (R53, R66, R81, R97, R178, R306). `noAccept` holds from a return with a branch record
until the branch's target has issued (R321). `fdSeen` is the model's own record of the register pairs that FDSTEPD,
FDSTEPR and FDSTEP have written, each with whether it is a root's (R235, R236). `evnext` is the last EVNEXT: the cycle as of
which it reads, its register, and the place of its write (R343). `str` is a string instruction at a point (R171), and `trap` the precise cause that is raised at the
next boundary of a string, gather or scatter instruction (R174, R223). `deAt` is the cycle in which the instruction at the boundary
reached DE (R54, R109). -/
structure Seq where
  nextIssue : Nat
  slot : Nat
  wseq : Nat
  inflight : List PendingWrite
  branch : Option Branch
  invoke : Option (Nat × TWord)
  shadow : Option Shadow
  imm : Option (BitVec 22)
  rpt : Option Repeat
  hold : Option Nat
  imprecise : Option Imprecise
  mcDue : List McDue
  entryEnd : Nat
  inReset : Bool
  joinUntil : Option Nat
  noAccept : Bool
  evnext : Option (Nat × Reg × Nat)
  fdSeen : List (Reg × Word × Word × Bool)
  micro : Option Micro
  str : Option StrCont
  trap : Option Cause
  deAt : Nat
  deriving DecidableEq, Repr

/-! ## Registers of a core -/

/-- The data registers of a core (R17, R44, R49, R134, R190, R227, R228). -/
structure Regs where
  g : Vector TWord 32
  w : Vector (BitVec 4096) 32
  k : Vector (BitVec 512) 8
  vl : BitVec 13
  dctl : BitVec 32
  fpctl : BitVec 32
  fpflags : BitVec 5
  deriving DecidableEq, Repr

/-- The status and exception registers of a core (R125, R309, R310, R311). -/
structure ExcRegs where
  status : BitVec 32
  pcc : TWord
  cause : BitVec 8
  xpc : TWord
  xstat : BitVec 32
  xaddr : Addr
  xinfo : BitVec 64
  xframe : TWord
  ivec : TWord
  bpc : TWord
  bstat : BitVec 32
  bcause : BitVec 8
  binfo : BitVec 64
  depth : Nat
  locked : Bool
  deriving DecidableEq, Repr

/-- A request of the data port that has not been answered (R462, R291): the address, the key it is checked
under, the cycle of its GO, and what it does. -/
inductive DpKind where
  | read (len : Nat)
  | write (bytes : List Byte)
  | keyw (key : Byte)
  | keyr
  deriving DecidableEq, Repr

/-- See `DpKind`; `twin` marks a burst of a witness pair, whose response reaches both ports (R465). -/
structure DpReq where
  addr : Addr
  key : BitVec 4
  go : Nat
  kind : DpKind
  twin : Bool
  deriving DecidableEq, Repr

/-- What comes back to a data port: ERR, the first byte refused or in error, the bytes of a read, and whether they are the byte of a
KEYR (R463, R464). -/
structure DpReply where
  err : BitVec 2
  bad : Addr
  data : Option (List Byte)
  keyr : Bool
  deriving DecidableEq, Repr

/-- The data port of a core (R461). `buf` is the 4 KB buffer and `len` the bytes of the burst in it; `keyr` marks the byte
of a KEYR in it (R464), `fall` is the cycle from which DPWAIT issues, and `bad` the first byte refused or in error (R463).
`req` is the request under way and `reply` what it gave, once it has been performed (R460). -/
structure DataPort where
  addr : TWord
  cnt : BitVec 13
  busy : Bool
  err : BitVec 2
  burst : BitVec 3
  inc : BitVec 3
  dir : Bool
  stall : BitVec 64
  buf : List Byte
  len : Nat
  keyr : Bool
  fall : Nat
  bad : Addr
  req : Option DpReq
  reply : Option DpReply
  deriving DecidableEq, Repr

/-! ## The memory side of a core -/

/-- An entry of the LDS store buffer (R72): the LDS offset, the bytes, the tag of a capability store, the cycle
in which it entered, and the cycle in which it drained, in which it is still present (R73). -/
structure SbEntry where
  off : Nat
  bytes : List Byte
  tag : Option Bool
  enter : Nat
  drained : Option Nat
  deriving DecidableEq, Repr

/-- An entry of the vector queue (R77, R78): the instruction with what it read at dispatch (R192, R201), the cycles of its
first and last beat, the extra latency X of R203, and the address of the instruction (R403). -/
structure VEntry where
  instr : Instr
  disp : Nat
  first : Nat
  last : Nat
  lat : Nat
  vle : Nat
  dctl : BitVec 32
  fpctl : BitVec 32
  op : TWord
  addr : Addr
  key : BitVec 4
  isMem : Bool
  global : Bool
  seq : Nat
  pc : Addr
  deriving DecidableEq, Repr

/-- A vector load or store, contiguous or by index: whether it stores, whether its lanes are decimal images, the lane width,
the register and the mask (R216, R220). -/
structure VMem where
  store : Bool
  dec : Bool
  width : Nat
  reg : Reg
  km : KReg
  deriving DecidableEq, Repr

/-- A vector entry whose beats are done and whose results are not yet visible outside (R203, R205). -/
structure VDone where
  last : Nat
  lat : Nat
  isMem : Bool
  gWrite : Option (Reg × Word)
  fpOr : BitVec 5
  seq : Nat
  deriving DecidableEq, Repr

/-- What a fabric request does when it is performed (R255, R258, R259). -/
inductive FabricKind where
  /-- a part of a load: the load, the offset of the part in it, and its length -/
  | load (lid off len : Nat)
  /-- a part of a store, with the tag of a capability store -/
  | store (bytes : List Byte) (tag : Option Bool)
  /-- a block read, by its number in the list of block reads -/
  | blockRead (bid : Nat)
  /-- a block write; a byte that is absent is not written -/
  | blockWrite (bytes : List (Option Byte))
  deriving DecidableEq, Repr

/-- A request that a core has sent to the fabric and that is not yet performed (R255), with the place of its instruction in the
order of issue. `base` tells whether it was sent from base level. -/
structure FabricReq where
  order : Nat
  seq : Nat
  due : Nat
  addr : Nat
  key : BitVec 4
  base : Bool
  kind : FabricKind
  deriving DecidableEq, Repr

/-- What a decimal memory form that reads does with its field (R142). -/
inductive DecKind where
  | dld | dadd | dsub | pack
  deriving DecidableEq, Repr

/-- A decimal memory form that waits for a global field (R144): what it does, its register, and what it read when it
issued: gd, DCTL, its slot, whether PA was set, and its address (R135, R146). -/
structure DecLoad where
  kind : DecKind
  gd : Reg
  a : Word
  dctl : BitVec 32
  slot : Nat
  pa : Bool
  pc : Addr
  deriving DecidableEq, Repr

/-- Where the bytes of an outstanding global load go (R59, R114, R144). -/
inductive LoadDest where
  | reg (r : Reg) (sgn : Bool)
  | cap (r : Reg)
  | dec (d : DecLoad)
  deriving DecidableEq, Repr

/-- An outstanding global load (R59): the cycle in which it completes, the bytes its parts have brought,
the tag of the word, and an uncorrectable word it met. `twin` marks a load of the odd core of a pair, whose bytes
come from the even core's load (R88). -/
structure GLoad where
  lid : Nat
  seq : Nat
  due : Nat
  dest : LoadDest
  data : List Byte
  tag : Bool
  bad : Option Addr
  twin : Bool
  deriving DecidableEq, Repr

/-- A block read that has been sent and not returned (R167, R218, R259), with an uncorrectable word that it met (R268). -/
structure BlockRead where
  bid : Nat
  sent : Nat
  addr : Nat
  data : Option (List Byte)
  bad : Option Nat
  toVec : Bool
  deriving DecidableEq, Repr

/-- A block load of the Rand unit in progress (R218, R219): the entry, and the bytes that have come, each part with its offset
in the range. -/
structure VLoad where
  entry : VEntry
  got : List (Nat × List Byte)
  deriving DecidableEq, Repr

/-- An MVBL with a global source in progress (R167, R174): its registers and start cycle; the capabilities as it read
them, with the level they were read at; the operand addresses, keys and the length; the source blocks read and the bytes
written to the destination; the source block that was not read, with whether its key byte could not be read, and the first byte that the check stopped at; and the
source bytes that have come. -/
structure Mvbl where
  gd : Reg
  ga : Reg
  gb : Reg
  start : Nat
  dv : TWord
  sv : TWord
  legacy : Bool
  base : Bool
  dst : Nat
  src : Nat
  len : Nat
  dkey : BitVec 4
  skey : BitVec 4
  dreg : Nat
  sreg : Nat
  done : Nat
  wrote : Nat
  refused : Option (Nat × Bool × Addr)
  got : List Byte
  deriving DecidableEq, Repr

/-- A load from LDS or the LIS between its issue and its E1 cycle (R52, R56): where its bytes go, its place in the order of issue,
the cycle of its result, the parts still to be read, one in each cycle, with the bytes that the store buffer forwards in place of
those read (R75, R144), the forwarded tag, and the bytes read. -/
structure LocalLoad where
  dest : LoadDest
  seq : Nat
  due : Nat
  parts : List (Nat × List (Option Byte))
  tag : Option Bool
  got : List Byte
  deriving DecidableEq, Repr

/-- What a background request does in the bank or port that grants it (R261): a read of bytes of one block, or a write of those that
are present, with the words that take a tag. -/
inductive BgWhat where
  | read (n : Nat)
  | write (bytes : List (Option Byte)) (tags : List Nat)
  deriving DecidableEq, Repr

/-- A background request (R261): its requester's place in the order of R261, its address, the fabric cycle in which it is sent, the
core whose stores it follows, those up to a place in the order of issue (R411, R454, R528), and which item of the requester it
serves, with the offset of its bytes in it. -/
structure BgReq where
  who : Nat
  addr : Nat
  sent : Nat
  after : Option (CoreId × Nat)
  job : Nat
  off : Nat
  what : BgWhat
  deriving DecidableEq, Repr

/-- What a background request came to: the bytes of a read and the words of it that are tagged, an uncorrectable word that it met, or
the first byte that the key rule refused (R269, R285). -/
structure BgDone where
  who : Nat
  job : Nat
  off : Nat
  bytes : List Byte
  tags : List Nat
  bad : Option Nat
  refused : Option Nat
  deriving DecidableEq, Repr

/-- Where a result goes: the core, the cycle of its instruction, the register, and the place in the order of issue (R88). -/
structure ResultTo where
  core : CoreId
  cycle : Nat
  reg : Reg
  seq : Nat
  deriving DecidableEq, Repr

/-- What comes about in a core in a cycle that is fixed when its instruction issues, or in a unit. -/
inductive TimedDo where
  /-- a part of a load read in E1 (R52, R144) -/
  | load (l : LocalLoad)
  /-- bytes written through the core's port, or a frame word through the fabric port (R72, R73, R144, R317), with a capability's tag -/
  | put (at_ : Nat) (bytes : List Byte) (tag : Option Bool)
  /-- a key byte read by KEYR in E1 (R290) -/
  | keyr (at_ : Nat) (gd : Reg) (seq : Nat)
  /-- beat k of a vector load or store in LDS (R217) -/
  | beat (e : VEntry) (k : Nat)
  /-- block k of a vector load or store in the global scratchpad (R218, R219) -/
  | vblock (e : VEntry) (k : Nat)
  /-- lane i of a gather or scatter, at an LDS offset (R222), and the cycle of a MACHINE_CHECK for an error that it meets (R268) -/
  | lane (m : VMem) (i off due : Nat)
  /-- the last cycle before the next point, or before the end, of a string instruction (R166, R189), or the cycle in which an
  MVBL issues a block write (R167) -/
  | string (j : StrJob)
  /-- source block k of an MVBL read (R167) -/
  | mvblRead (k : Nat)
  /-- the second destination block that source block k of an MVBL completes (R167) -/
  | mvblSend (k : Nat)
  /-- the branch record of an XRET read from the frame at an address, under the saved status, with its place in the order of
  issue (R320, R321) -/
  | record (at_ : Nat) (st : BitVec 32) (seq : Nat)
  /-- BPC, BSTAT, BCAUSE and BINFO reloaded from the base frame at an address (R320) -/
  | reload (at_ : Nat)
  /-- the request of the data port crosses and is performed (R460, R462) -/
  | burst
  /-- lockup, as a MACHINE_CHECK falls due within a base entry (R326) -/
  | lockup
  /-- a background request is sent, under a key or none, checked for a load or for a store (R411, R528) -/
  | send (r : BgReq) (key : Option (BitVec 4)) (store : Bool)
  /-- the grants of phase B (R261) -/
  | grant
  /-- the submission of an engine request, of a mover descriptor or of a journal record, behind the stores of a core, with where its
  result goes (R378, R410, R453) -/
  | esub (e : Nat) (ga gb : TWord) (base : Bool) (after : CoreId × Nat) (dests : List ResultTo)
  | msub (ch : Nat) (ga : TWord) (base : Bool) (after : CoreId × Nat) (dests : List ResultTo)
  | jcommit (pair : Option PairId) (ga : TWord) (gb : Word) (after : CoreId × Nat) (dests : List ResultTo)
  /-- STATUS and OUTLEN of the request that engine e wrote back from a fabric cycle on are sent (R528) -/
  | engStatus (e : Nat) (start : Nat)
  /-- POL, OE and OUT of the GPIO pins take effect at the pins, and the synchroniser gives the levels driven (R514) -/
  | pins (pol oe out : BitVec 16)
  | sense (mask level : BitVec 16)
  deriving DecidableEq, Repr

/-- What is to come about in cycle `cycle` in core `core`. Within a cycle reads come first, then writes through the core's port, then
writes through the fabric port (R245): ranks 0, 1 and 2. -/
structure Timed where
  cycle : Nat
  rank : Nat
  core : CoreId
  what : TimedDo
  deriving DecidableEq, Repr

/-- The memory side of a core (R59, R72, R73, R77, R255). -/
structure MemSide where
  storeBuf : List SbEntry
  loadE1 : List Nat
  lastDrain : Nat
  vq : List VEntry
  vdone : List VDone
  vlast : Nat
  vloads : List VLoad
  freqs : List FabricReq
  gloads : List GLoad
  blocks : List BlockRead
  mvbl : Option Mvbl
  nextId : Nat
  deriving DecidableEq, Repr

/-- One core: its registers, data port, sequencing, memory side, and its pending and in-service event bits
(R338). -/
structure Core where
  regs : Regs
  x : ExcRegs
  dp : DataPort
  seq : Seq
  ms : MemSide
  evP : BitVec 512
  evS : BitVec 512
  deriving DecidableEq, Repr

/-! ## Witness pairs -/

/-- An act that the checker compares (R401). -/
inductive Act where
  | store (addr : Nat) (bytes : List Byte) (tag : Option Bool) (key : BitVec 4) (base : Bool)
  | block (addr : Nat) (bytes : List (Option Byte))
  | mover (ch : BitVec 6) (ga : TWord) (desc : List Byte) (base : Bool)
  | dpGo (dir : Bool) (burst inc : BitVec 3) (addr : TWord) (bytes : List Byte) (key : BitVec 4)
  | esub (e : BitVec 6) (ga gb : TWord) (base : Bool)
  | event (fn : Nat) (n : EventId)
  | keyw (frame : Nat) (key : Byte)
  | keyr (frame : Nat)
  | jcommit (ga : TWord) (gb : Word)
  | leave
  deriving DecidableEq, Repr

/-- An act with the cycle of its issue, the address of its instruction, and the register and order of issue
under which a result is written. -/
structure HeldAct where
  act : Act
  cycle : Nat
  pc : Addr
  gd : Reg
  seq : Nat
  deriving DecidableEq, Repr

/-- The state of a witness pair: WPSTAT bit n, the acts of each core that are not compared yet, what the even core's
loads and reads returned for the odd core, and the events the even core accepted (R88-R91, R399). -/
structure Pair where
  formed : Bool
  evenActs : List HeldAct
  oddActs : List HeldAct
  loadQ : List (List Byte × Bool)
  sysQ : List Word
  eventQ : List (Nat × EventId)
  deriving DecidableEq, Repr

/-! ## Configuration block, Slath control, events -/

/-- A load of the XOP set in progress (R372-R376): the manifest with its address, its length and the fabric cycle of its first read.
`stage` 3 reading it, 0 verifying, 1 writing words, 2 ready to install; `verdict` is what the curve engine answered, and `nextWord` the
words that have reached each core. -/
structure LoadJob where
  manifest : List Byte
  stage : Nat
  addr : Nat
  len : Nat
  start : Nat
  verdict : Option Bool
  nextWord : List Nat
  due : Nat
  deriving DecidableEq, Repr

/-- The XOP loader's registers (R371). -/
structure Loader where
  keyh : Vector (BitVec 64) 4
  src : TWord
  len : BitVec 32
  cores : BitVec 48
  eng : BitVec 5
  busy : Bool
  result : BitVec 8
  rev : BitVec 16
  job : Option LoadJob
  deriving DecidableEq, Repr

/-- The configuration block (R108, R248, R293, R301, R367, R368, R370). -/
structure Cfg where
  lock : Bool
  divmode : Bool
  divact : Bool
  divSince : Nat
  pmatch : Vector (BitVec 32) 16
  patchrev : BitVec 16
  lgcapt : Vector TWord 48
  lgcaps : Vector TWord 48
  lgtrap : BitVec 48
  xopent : Vector (Vector (BitVec 32) 64) 48
  loader : Loader
  deriving DecidableEq, Repr

/-- One scrubber (R262, R263): the next row, the rows due, since when, and whether it is starved. -/
structure Scrubber where
  row : Nat
  dueRows : Nat
  since : Nat
  starved : Bool
  deriving DecidableEq, Repr

/-- Slath and scratchpad control (R264, R270). -/
structure Slath where
  scrubEn : Bool
  interval : BitVec 24
  starveCnt : BitVec 16
  units : Vector Scrubber 144
  lastDue : Nat
  cecnt : BitVec 16
  uecnt : BitVec 16
  eccValid : Bool
  eccAddr : Addr
  mccore : BitVec 6
  deriving DecidableEq, Repr

/-- What comes to a P or S bit in a given cycle (R338, R340). -/
inductive EvDo where
  | ack
  | clr
  | raise (level : Bool)
  deriving DecidableEq, Repr

/-- A change of the bits of event `ev` on core `c`, effective in cycle `due`. -/
structure EvAct where
  due : Nat
  core : CoreId
  ev : EventId
  what : EvDo
  deriving DecidableEq, Repr

/-- One core timer (R344). -/
structure Timer where
  per : Bool
  en : Bool
  cmp : BitVec 64
  period : BitVec 32
  deriving DecidableEq, Repr

/-- The cycles in which a held line is 1 whose raises under level delivery are still to be performed: from one on, up to the one in which
the line falls (R335). -/
structure LevelSpan where
  src : EventId
  first : Nat
  stop : Option Nat
  deriving DecidableEq, Repr

/-- The event controller (R334-R338, R344). `lastPulse` is the last cycle in which a pulse source drove its line, plus 2, and
0 where it has driven none. -/
structure EventCtl where
  route : Vector (BitVec 64) 512
  host : Vector (BitVec 32) 512
  line : BitVec 512
  lastCore : Vector (Option CoreId) 512
  lastPulse : Vector Nat 512
  held : BitVec 512
  acts : List EvAct
  levels : List LevelSpan
  timers : Vector Timer 48
  deriving DecidableEq, Repr

/-! ## Key store and engines -/

/-- A key of the key store (R388): its first slot, TYPE, NSLOT, USAGE, LABEL and material. -/
structure KeyEntry where
  slot : Nat
  ktype : BitVec 8
  nslot : Nat
  usage : BitVec 16
  label : List Byte
  material : List Byte
  deriving DecidableEq, Repr

/-- The key store and the device master key (R388, R391, R392, R397): its keys and generations, the slots that hold an uncorrectable or a
single-bit error, and a zeroisation that is overwriting it, by the fabric cycle in which it started and the slots overwritten. -/
structure KeyStore where
  keys : List KeyEntry
  gens : List (Nat × Nat)
  retired : List Nat
  badSlots : List Nat
  softSlots : List Nat
  sweep : Option (Nat × Nat)
  epoch : BitVec 16
  dmk : Option (List Byte)
  dmkValid : Bool
  zpend : Bool
  deriving DecidableEq, Repr

/-- DRBGSTAT (R397). STATE 0 TESTING, 1 READY, 2 FAILED. -/
structure Drbg where
  state : BitVec 2
  rct : Bool
  apt : Bool
  failcnt : BitVec 16
  testUntil : Nat
  deriving DecidableEq, Repr

/-- Who submitted an engine request (R378, R379, R376). -/
inductive EngSource where
  | core (c : CoreId) (base : Bool)
  | journal (seqNo : BitVec 64) (digest : List Byte)
  | loader (digest sig pub : List Byte)
  deriving DecidableEq, Repr

/-- An accepted engine request (R378, R379). `entry` is the fabric cycle in which it enters its queue, and `after` the core whose
stores its reads follow, up to a place in the order of issue (R528). -/
structure EngReq where
  ga : TWord
  gb : TWord
  source : EngSource
  entry : Nat
  after : Option (CoreId × Nat)
  marked : Bool
  deriving DecidableEq, Repr

/-- The request descriptor as read (R380). -/
structure Desc where
  op : BitVec 16
  flags : BitVec 8
  dbcore : BitVec 8
  inlen : Nat
  inoff : Nat
  outoff : Nat
  key1 : TWord
  key2 : TWord
  param : List Byte
  reserved : BitVec 32
  deriving DecidableEq, Repr

/-- What an operation gives: the status, the bytes it writes, and how many of their first words are handles (R383). -/
structure EngResult where
  status : BitVec 16
  out : List Byte
  handles : Nat
  deriving DecidableEq, Repr

/-- A request whose fetch has started (R382): whether its descriptor has come, the first and last fabric cycles of its stages, whether
the descriptor's frame refused it (R381), the descriptor, whether its input is still to be read, the input, the status that the fetch
gives, the bytes that its output takes, and what its compute gave. -/
structure EngStage where
  req : EngReq
  known : Bool
  start : Nat
  fetchEnd : Nat
  cmpStart : Nat
  cmpEnd : Nat
  wbEnd : Nat
  refused : Bool
  desc : Desc
  unread : Bool
  input : List Byte
  pre : BitVec 16
  outLen : Nat
  result : EngResult
  deriving DecidableEq, Repr

/-- The CTR_DRBG instance of an engine: Key, V and the generate requests since its last reseed (R394). -/
structure CtrState where
  key : List Byte
  v : List Byte
  count : Nat
  deriving DecidableEq, Repr

/-- One engine (R379, R382, R394, R397): requests accepted and not yet in the queue, the queue, the journal's queue of
engine 32, the request fetched, those computed and not yet written back, those written back and not yet complete, the
fabric cycle from which the fetch stage is free, the last cycle of the last compute, DONE, and its DRBG. -/
structure Engine where
  accepted : List EngReq
  queue : List EngReq
  jqueue : List EngReq
  fetch : Option EngStage
  run : List EngStage
  wb : List EngStage
  fetchFree : Nat
  cmpEnd : Nat
  done : BitVec 32
  drbg : CtrState
  deriving DecidableEq, Repr

/-! ## Wale journal -/

/-- The kinds of journal entry (R405), with what their payload needs (R417, R422, R423). A RESUME carries the slot, its
WCNT, whether its signature part is valid, its SEQ and its chain value. -/
inductive JKind where
  | genesis (reason : BitVec 8)
  | checkpoint (trigger : BitVec 8)
  | resume (slot : Nat) (wcnt : BitVec 64) (sigOk : Bool) (seq : BitVec 64) (chain : List Byte)
  | mismatch (payload : List Byte)
  | record (type : BitVec 8)
  deriving DecidableEq, Repr

/-- An entry on its way through the unit (R404, R409-R412, R422). `due` is the fabric cycle that R410 or R412 counts from,
`wait` the CNUM that must be chained before, `mark` asks for the zeroisation marker behind the head part, and `forced` tells that
event 340 asked for this checkpoint. -/
structure JItem where
  kind : JKind
  tai : BitVec 96
  cycle : BitVec 64
  core : BitVec 8
  pair : BitVec 8
  lean : Bool
  unsync : Bool
  cnum : Nat
  addr : Nat
  len : Nat
  key : BitVec 4
  after : Option (CoreId × Nat)
  payload : List Byte
  ferr : BitVec 2
  defer : BitVec 16
  due : Nat
  wait : Nat
  mark : Bool
  forced : Bool
  deriving DecidableEq, Repr

/-- A payload fetch in progress (R411). -/
structure JFetch where
  item : JItem
  start : Nat
  stop : Nat
  deriving DecidableEq, Repr

/-- A hash in progress (R412): the entry with its SEQ, the chain value before it, its header and payload, whether it is
the second hash of the entry, whether the two cores disagree, and its last fabric cycle. -/
structure JHash where
  item : JItem
  seqNo : BitVec 64
  prev : List Byte
  body : List Byte
  retried : Bool
  disagree : Bool
  stop : Nat
  deriving DecidableEq, Repr

/-- A chained entry that PROD has not passed (R416): its place in the ring, its size, the fabric cycle of its release, and
whether it is a CHECKPOINT whose signature field is not written yet. -/
structure JOut where
  at_ : Nat
  size : Nat
  ready : Nat
  seqNo : BitVec 64
  unsigned : Bool
  deriving DecidableEq, Repr

/-- The parts that the unit writes into head slots (R420, R422). -/
inductive PartKind where
  | head | mark | sig
  deriving DecidableEq, Repr

/-- A part write that waits (R420): what goes into the head part, or the signature. -/
structure PartJob where
  kind : PartKind
  seqNo : BitVec 64
  chain : List Byte
  tai : BitVec 96
  cycle : BitVec 64
  defer : BitVec 16
  sig : List Byte
  deriving DecidableEq, Repr

/-- A part write in progress (R420): its job, the slot, the bytes, and the cycle of its end. -/
structure PartWrite where
  job : PartJob
  slot : Nat
  bytes : List Byte
  stop : Nat
  deriving DecidableEq, Repr

/-- A CHECKPOINT whose signature is not written yet (R419): its head job, its header, payload and chain value, the place of
its signature field, the fabric cycle in which its digest is formed, and what IDSIGN answered. -/
structure JCheck where
  job : PartJob
  body : List Byte
  sigAt : Nat
  digestDue : Nat
  submitted : Bool
  sig : Option (List Byte)
  deriving DecidableEq, Repr

/-- The journal unit (R413) and what R409-R422 keep between steps. `chainOn` holds from the start of a chain, `chained` is
the CNUM of the last commit chained, `gate` the last CNUM of the old chain after a zeroisation, `sinceCk` the entries and
`lastCk` the cycle since the last CHECKPOINT, and `prevCk` its SEQ in this chain. -/
structure Journal where
  en : Bool
  run : Bool
  fault : Bool
  bad : BitVec 12
  defer : BitVec 16
  hseq : BitVec 64
  ckseq : BitVec 64
  sgseq : BitVec 64
  fdone : Nat
  ferr : Nat
  fecnt : BitVec 32
  head : List Byte
  rbase : Addr
  rsize : BitVec 37
  prod : Nat
  cons : Nat
  thresh : BitVec 37
  cnum : Nat
  reserved : Nat
  accepted : List JItem
  queue : List JItem
  fetch : Option JFetch
  fetchEnd : Nat
  fetched : List JItem
  unit : List JItem
  waiting : List JItem
  hash : Option JHash
  hashEnd : Nat
  outs : List JOut
  checks : List JCheck
  parts : List PartJob
  partWrite : Option PartWrite
  skipped : List Nat
  startAt : Option Nat
  chainOn : Bool
  chained : Nat
  gate : Option Nat
  prevCk : BitVec 64
  sinceCk : Nat
  lastCk : Nat
  misCnt : BitVec 32
  deriving DecidableEq, Repr

/-! ## Host link -/

/-- An entry of a ring's arrival queue (R432 ARRIVE, R436). -/
structure Arrival where
  slot : BitVec 6
  rgen : BitVec 4
  len : BitVec 12
  acyc : BitVec 32
  cycle : Nat
  deriving DecidableEq, Repr

/-- One ring pair (R432). `admitted` holds the slots admitted and not yet posted. -/
structure Ring where
  en : Bool
  mir : Bool
  cred : BitVec 64
  tlen : BitVec 9
  echo : BitVec 9
  ceil : BitVec 16
  wcnt : BitVec 16
  rgen : BitVec 4
  whcred : BitVec 64
  perr : Bool
  state : BitVec 2
  dropcnt : BitVec 32
  busycnt : BitVec 32
  cmir : BitVec 64
  ehbase : BitVec 64
  ecbase : BitVec 64
  eseq : BitVec 64
  arrivals : List Arrival
  admitted : BitVec 64
  deriving DecidableEq, Repr

/-- A post on an egress channel (R441); `live`: its ring has not been reset since (R444); `after`: the core whose stores its reads follow, up
to a place in the order of issue. -/
structure Post where
  ring : RingId
  slot : BitVec 6
  live : Bool
  len : BitVec 12
  rcode : BitVec 32
  cycle : Nat
  after : Option (CoreId × Nat)
  deriving DecidableEq, Repr

/-- A transfer in progress: the post, its start and its last fabric cycle (R442). -/
structure Transfer where
  post : Post
  start : Nat
  stop : Nat
  deriving DecidableEq, Repr

/-- An egress channel (R442). -/
structure Egress where
  posts : List Post
  cur : Option Transfer
  lastEnd : Nat
  deriving DecidableEq, Repr

/-- A busy arrival (R439); `live`: its ring has not been reset since (R444). -/
structure BusyItem where
  ring : RingId
  slot : BitVec 6
  live : Bool
  len : BitVec 12
  cycle : Nat
  deriving DecidableEq, Repr

/-- A busy response in progress with the values read in its first fabric cycle (R439): `echo` bytes of the request that are still to come,
and the bytes of the response that follow them. -/
structure BusyRun where
  item : BusyItem
  start : Nat
  echo : Nat
  body : List Byte
  deriving DecidableEq, Repr

/-- What the compute complex hands to the host-link domain (R346, R428, R431, R442). -/
inductive HostMsg where
  | write (fn : Nat) (addr : Nat) (bytes : List Byte)
  | read (fn : Nat) (addr n : Nat)
  | msix (vector : Nat) (addr : BitVec 64) (data : BitVec 32)
  | readData (bytes : List Byte)
  | unsupported
  | aer (severity : BitVec 2)
  deriving DecidableEq, Repr

/-- The host link (R426-R448). `early` counts the admission windows that a doorbell has begun before their command; `d3hot` holds the
functions in D3hot (R426). -/
structure HostLink where
  rings : Vector Ring 64
  busyQ : List BusyItem
  busyRun : Option BusyRun
  busyEnd : Nat
  egress : Vector Egress 4
  mbBusy : Bool
  mbH2d : BitVec 13
  mbD2h : BitVec 13
  msixPend : Vector (BitVec 64) 65
  msixMask : BitVec 65
  vfEnable : Bool
  numVfs : BitVec 6
  apBase : BitVec 22
  apKey : BitVec 4
  apEn : Bool
  up : Bool
  width : BitVec 5
  speed : BitVec 4
  window : Nat
  early : Nat
  d3hot : BitVec 65
  lastWrite : Nat
  ideInsecure : BitVec 4
  doe : Option Nat
  out : List HostMsg
  deriving DecidableEq, Repr

/-! ## Movers and attached memory -/

/-- A submitted mover descriptor (R453): the capability, whether from base level, the fabric cycle from which it can start, and the
core whose stores its read follows, up to a place in the order of issue (R454). -/
structure MovReq where
  ga : TWord
  base : Bool
  entry : Nat
  after : Option (CoreId × Nat)
  deriving DecidableEq, Repr

/-- A burst in progress (R456): its source and destination addresses and its bytes, the requests that it waits for, and whether they are
its writes. -/
structure MovBurst where
  src : Nat
  dst : Nat
  len : Nat
  parts : Nat
  writing : Bool
  deriving DecidableEq, Repr

/-- The descriptor in progress on a channel (R454-R457): the submission, its offset, its start, whether it has been read, its fields,
the burst in progress, whether a host read has been asked for, the bytes moved and the status so far. -/
structure MovRun where
  req : MovReq
  off : Nat
  start : Nat
  known : Bool
  cur : Option MovBurst
  asked : Bool
  srck : Nat
  dstk : Nat
  burst : Nat
  tags : Bool
  ev : Bool
  len : Nat
  haddr : Nat
  src : TWord
  dst : TWord
  next : Nat
  moved : Nat
  status : BitVec 16
  deriving DecidableEq, Repr

/-- One mover channel (R450). -/
structure Channel where
  func : BitVec 7
  baseOnly : Bool
  host : Bool
  en : Bool
  done : BitVec 32
  last : BitVec 16
  queue : List MovReq
  chain : Option (MovReq × Nat)
  run : Option MovRun
  free : Nat
  deriving DecidableEq, Repr

/-- One HBM3E stack's status (R469), its sensor range and a PHY failure (R468). -/
structure Stack where
  uev : Bool
  ueaddr : BitVec 48
  cecnt : BitVec 32
  hot : Bool
  phyFailed : Bool
  deriving DecidableEq, Repr

/-- The mover block (R450, R469). -/
structure Movers where
  ch : Vector Channel 64
  hbmPass : BitVec 8
  hbmCeth : BitVec 16
  hbmStacks : Vector Stack 4
  deriving DecidableEq, Repr

/-! ## Always-on domain -/

/-- Clocks, supplies, reset and identity (R475-R497). `wrapped` tells that the current TAI second began by a wrap;
`resetDue` is a device reset that is due, with its bits of RSTCAUSE; `clkLost` holds from a loss of clock until the clock is back (R473);
`crSeen` lists the changes of a hold that CRSTAT does not show yet, each with the cycle from which it does (R329); `okhBad` tells that OKH is unreadable; an empty
`trimPage` is the factory page, `trimBad` a page that an abandoned rewrite left invalid, and `trimOffsets` what the last trim
load applied. -/
structure Power where
  clkLean : Bool
  clkRefused : Bool
  clkSwitch : Option (Nat × Bool)
  taiSec : BitVec 48
  taiNs : BitVec 32
  taiArm : Bool
  taiSet : BitVec 48
  taiApplied : Bool
  goodEdges : Nat
  edgesSeen : Bool
  wrapped : Bool
  sync : Bool
  tsok : Bool
  ppserr : BitVec 16
  taiCycle : Nat
  minh : Bool
  mwarn : Bool
  cwarn : Bool
  mramMv : BitVec 16
  coreMv : BitVec 16
  ioMv : BitVec 16
  tmax : BitVec 16
  sensor : BitVec 4
  thWarn : Bool
  thCfg : BitVec 16
  trip : Bool
  rstcause : BitVec 8
  rstnHeld : Bool
  resetDue : Option (Nat × BitVec 8)
  resetHeld : Bool
  crhold : BitVec 48
  crholdDue : List (Nat × CoreId × Bool)
  crSeen : List (Nat × CoreId × Bool)
  clkLost : Bool
  bootRev : BitVec 16
  bootErr : BitVec 8
  bootStage : BitVec 4
  bootFirst : Bool
  bootCopyB : Bool
  bootSel : BitVec 2
  bootReady : Bool
  seedsValid : Bool
  okh : List Byte
  okhDone : Bool
  okhBad : Bool
  okhBusy : Bool
  okhNew : List Byte
  okhStart : Nat
  okhResult : BitVec 3
  okhAddr : Addr
  trimPage : List Byte
  trimSrc : Addr
  trimBusy : Bool
  trimTorn : Bool
  trimDefault : Bool
  trimBad : Bool
  trimLoaded : Bool
  trimNew : List Byte
  trimStart : Nat
  trimOffsets : List (BitVec 16)
  deriving DecidableEq, Repr

/-- GPIO, UART, SMBus, Quad-SPI and JTAG (R513-R522). `uartEnd` is the end of the byte on the line, `uartOut` and `smOut`
what has been sent, `smOffer` the packet offered, `qRun` the destination, length and end of a flash read, `tapDr` the data
register as captured, and `tapPreload` the boundary scan as preloaded. -/
structure Sideband where
  gpioPol : BitVec 16
  gpioOe : BitVec 16
  gpioOut : BitVec 16
  gpioPin : BitVec 16
  pinPol : BitVec 16
  pinOe : BitVec 16
  uartTx : List Byte
  uartRx : List Byte
  uartEnd : Option Nat
  uartOut : List Byte
  ferr : Bool
  rxovr : Bool
  txovr : Bool
  smRx : List (List Byte)
  smDrops : BitVec 8
  smOffer : Option (List Byte)
  smTxLen : BitVec 7
  smTxBuf : List Byte
  smOut : List (List Byte)
  qSrc : BitVec 24
  qDst : Addr
  qLen : BitVec 25
  qRun : Option (Nat × Nat × Nat)
  qErr : BitVec 2
  tapIr : BitVec 8
  tapDr : List Bool
  tapPreload : List Bool
  tamper : BitVec 2
  deriving DecidableEq, Repr

/-- The ordering codes of R1. -/
inductive Grade where
  | fd640S | fd640E | fd480S
  deriving DecidableEq, Repr

/-- The state of the device. `eccBad` and `eccSoft` are the words that hold an uncorrectable or a single-bit error, by address, and `keyBad`
and `keySoft` the frame key bytes, each by its copy, 48 for the master table, and its frame (R265). `timed`, `bg` and `bgDone` are what is to come about, the background requests sent and not granted, and what
those granted came to; `bgUsed` is a fabric cycle with the banks and ports that have made a grant in it. `pending` is the queue of commands, first in first out; `free` counts the free
values drawn and is the model's own. -/
structure State where
  now : Nat
  grade : Grade
  lean : Bool
  cores : Vector Core 48
  pairs : Vector Pair 24
  mem : List Host.Cell
  tags : List Nat
  fkeys : List Host.Cell
  timed : List Timed
  bg : List BgReq
  bgDone : List BgDone
  bgUsed : Nat × List Nat
  keyActs : List (Nat × CoreId × Nat × Byte)
  eccBad : List Nat
  eccSoft : List Nat
  keyBad : List (Nat × Nat)
  keySoft : List (Nat × Nat)
  cfg : Cfg
  slath : Slath
  ev : EventCtl
  engines : Vector Engine 49
  ks : KeyStore
  drbg : Drbg
  jn : Journal
  headSlots : List (Nat × List Byte)
  link : HostLink
  mov : Movers
  pw : Power
  sb : Sideband
  free : Nat
  pending : List Instr
  deriving DecidableEq, Repr

/-- Reasons for which a step stops with a fault. Every command of the table has an effect under the spec, so
no meaning of this model raises one. -/
inductive Fault where
  /-- Raised by nobody: kept so that the outcome has a fault type. It is safe. -/
  | none
  deriving DecidableEq, Repr

/-- Reasons for which a step is refused. -/
inductive Refusal where
  /-- Raised by an arm of exec for a command that has no meaning yet. It is safe: the model claims nothing
  of that command. -/
  | notModelled (mnemonic : String)
  deriving DecidableEq, Repr

/-! ## The state after reset -/

/-- The root capability (R296). -/
def rootCap : TWord := { val := 0xFFFC0007C00000000000000000000000, tag := true }

/-- The PCC after core reset: the root capability at the reset address (R298, R331). -/
def resetPcc : TWord := { val := 0xFFFC0007C00000000000000000100000, tag := true }

/-- The data registers after core reset (R17, R44, R49, R134, R190, R227, R228). -/
def Regs.reset : Regs :=
  { g := Vector.replicate 32 TWord.null, w := Vector.replicate 32 0,
    k := (Vector.replicate 8 0).set 0 (BitVec.allOnes 512),
    vl := 0x1000, dctl := 0, fpctl := 0, fpflags := 0 }

/-- The status and exception registers after core reset, at a base nesting depth (R125, R309-R311). -/
def ExcRegs.reset (depth : Nat) : ExcRegs :=
  { status := 0x008F0000, pcc := resetPcc, cause := 0, xpc := TWord.null, xstat := 0x00800000, xaddr := 0,
    xinfo := 0, xframe := TWord.null, ivec := TWord.null, bpc := TWord.null, bstat := 0x00800000, bcause := 0,
    binfo := 0, depth := depth, locked := false }

/-- The data port after core reset (R461). -/
def DataPort.reset : DataPort :=
  { addr := TWord.null, cnt := 0, busy := false, err := 0, burst := 0, inc := 4, dir := false, stall := 0,
    buf := [], len := 0, keyr := false, fall := 0, bad := 0, req := none, reply := none }

/-- The sequencing state after core reset. -/
def Seq.reset (inReset : Bool) : Seq :=
  { nextIssue := 0, slot := 0, wseq := 0, inflight := [], branch := none, invoke := none, shadow := none,
    imm := none, rpt := none, hold := none, imprecise := none, mcDue := [], entryEnd := 0, inReset := inReset,
    joinUntil := none, noAccept := false, evnext := none, fdSeen := [], micro := none, str := none, trap := none, deAt := 0 }

/-- The memory side after core reset (R330). -/
def MemSide.reset : MemSide :=
  { storeBuf := [], loadE1 := [], lastDrain := 0, vq := [], vdone := [], vlast := 0, vloads := [], freqs := [],
    gloads := [], blocks := [], mvbl := none, nextId := 0 }

/-- A core after core reset. -/
def Core.reset (depth : Nat) (inReset : Bool) : Core :=
  { regs := Regs.reset, x := ExcRegs.reset depth, dp := DataPort.reset, seq := Seq.reset inReset,
    ms := MemSide.reset, evP := 0, evS := 0 }

/-- Core 0 after device reset: at base level with the root capability in g1 (R296, R311). -/
def Core.reset0 : Core :=
  let k := Core.reset 1 false
  { k with regs := { k.regs with g := k.regs.g.set 1 rootCap } }

/-- A pair that is not formed. -/
def Pair.reset : Pair :=
  { formed := false, evenActs := [], oddActs := [], loadQ := [], sysQ := [], eventQ := [] }

/-- The XOP loader after device reset (R371). -/
def Loader.reset : Loader :=
  { keyh := Vector.replicate 4 0, src := TWord.null, len := 0, cores := 0, eng := 0, busy := false, result := 0,
    rev := 0, job := none }

/-- The configuration block after device reset. -/
def Cfg.reset : Cfg :=
  { lock := false, divmode := false, divact := false, divSince := 0, pmatch := Vector.replicate 16 0, patchrev := 0,
    lgcapt := Vector.replicate 48 TWord.null, lgcaps := Vector.replicate 48 TWord.null, lgtrap := 0,
    xopent := Vector.replicate 48 (Vector.replicate 64 0), loader := Loader.reset }

/-- A scrubber at the first row with nothing due. -/
def Scrubber.reset : Scrubber := { row := 0, dueRows := 0, since := 0, starved := false }

/-- Slath control after device reset (R264, R270). -/
def Slath.reset : Slath :=
  { scrubEn := true, interval := 0x4000, starveCnt := 0, units := Vector.replicate 144 Scrubber.reset,
    lastDue := 0, cecnt := 0, uecnt := 0, eccValid := false, eccAddr := 0, mccore := 0 }

/-- A timer after device reset (R344). -/
def Timer.reset : Timer := { per := false, en := false, cmp := 0, period := 0 }

/-- The event controller after device reset (R334, R336). -/
def EventCtl.reset : EventCtl :=
  { route := Vector.replicate 512 0, host := Vector.replicate 512 0, line := 0,
    lastCore := Vector.replicate 512 none, lastPulse := Vector.replicate 512 0, held := 0, acts := [], levels := [],
    timers := Vector.replicate 48 Timer.reset }

/-- The key store after device reset, over the DMK cells that MRAM keeps (R391, R487). -/
def KeyStore.reset (dmk : Option (List Byte)) : KeyStore :=
  { keys := [], gens := [], retired := [], badSlots := [], softSlots := [], sweep := none, epoch := 0, dmk := dmk, dmkValid := false,
    zpend := false }

/-- The DRBG after device reset (R397, R487). -/
def Drbg.reset : Drbg := { state := 0, rct := false, apt := false, failcnt := 0, testUntil := 0 }

/-- An engine after device reset (R397). -/
def Engine.reset : Engine :=
  { accepted := [], queue := [], jqueue := [], fetch := none, run := [], wb := [], fetchFree := 0, cmpEnd := 0,
    done := 0, drbg := { key := List.replicate 32 0, v := List.replicate 16 0, count := 0 } }

/-- The journal unit after device reset (R413). -/
def Journal.reset : Journal :=
  { en := false, run := false, fault := false, bad := 0, defer := 0, hseq := BitVec.allOnes 64,
    ckseq := BitVec.allOnes 64, sgseq := BitVec.allOnes 64, fdone := 0, ferr := 0, fecnt := 0,
    head := List.replicate 32 0, rbase := 0, rsize := 0, prod := 0, cons := 0, thresh := 0, cnum := 0, reserved := 0,
    accepted := [], queue := [], fetch := none, fetchEnd := 0, fetched := [], unit := [], waiting := [], hash := none,
    hashEnd := 0, outs := [], checks := [], parts := [], partWrite := none, skipped := [], startAt := none, chainOn := false,
    chained := 0, gate := none, prevCk := BitVec.allOnes 64, sinceCk := 0, lastCk := 0, misCnt := 0 }

/-- A ring after device reset (R432). -/
def Ring.reset : Ring :=
  { en := false, mir := false, cred := 0, tlen := 0, echo := 0, ceil := 0, wcnt := 0, rgen := 0, whcred := 0,
    perr := false, state := 0, dropcnt := 0, busycnt := 0, cmir := 0, ehbase := 0, ecbase := 0, eseq := 0,
    arrivals := [], admitted := 0 }

/-- An idle egress channel. -/
def Egress.reset : Egress := { posts := [], cur := none, lastEnd := 0 }

/-- The host link after device reset (R431, R432, R445). -/
def HostLink.reset : HostLink :=
  { rings := Vector.replicate 64 Ring.reset, busyQ := [], busyRun := none, busyEnd := 0,
    egress := Vector.replicate 4 Egress.reset, mbBusy := false, mbH2d := 0, mbD2h := 0,
    msixPend := Vector.replicate 65 0, msixMask := 0, vfEnable := false, numVfs := 0, apBase := 0, apKey := 0,
    apEn := false, up := false, width := 0, speed := 0, window := 0, early := 0, d3hot := 0, lastWrite := 0, ideInsecure := 0, doe := none,
    out := [] }

/-- A mover channel after device reset (R450). -/
def Channel.reset : Channel :=
  { func := 0, baseOnly := false, host := false, en := false, done := 0, last := 0, queue := [], chain := none,
    run := none, free := 0 }

/-- A stack after device reset (R469). -/
def Stack.reset : Stack := { uev := false, ueaddr := 0, cecnt := 0, hot := false, phyFailed := false }

/-- The mover block after device reset (R450, R469). -/
def Movers.reset : Movers :=
  { ch := Vector.replicate 64 Channel.reset, hbmPass := 0x18, hbmCeth := 0x0400,
    hbmStacks := Vector.replicate 4 Stack.reset }

/-- THWARN at reset by grade (R485). -/
def thwarnReset : Grade → BitVec 16
  | .fd640E => 0x0690
  | _ => 0x05F0

/-- The always-on registers after a power-on reset (R475-R496). The spec gives RSTCAUSE no reset value; POR is
set (log entry 8). -/
def Power.reset (g : Grade) : Power :=
  { clkLean := true, clkRefused := false, clkSwitch := none, taiSec := 0, taiNs := 0, taiArm := false, taiSet := 0,
    taiApplied := false, goodEdges := 0, edgesSeen := false, wrapped := false, sync := false, tsok := false,
    ppserr := 0, taiCycle := 0, minh := false, mwarn := false, cwarn := false, mramMv := 0, coreMv := 0, ioMv := 0,
    tmax := 0, sensor := 0, thWarn := false, thCfg := thwarnReset g, trip := false, rstcause := 1, rstnHeld := false,
    resetDue := none, resetHeld := false, crhold := 0xFFFFFFFFFFFE, crholdDue := [], crSeen := [], clkLost := false, bootRev := 0, bootErr := 0,
    bootStage := 0, bootFirst := false, bootCopyB := false, bootSel := 0, bootReady := false, seedsValid := false,
    okh := List.replicate 48 0, okhDone := false, okhBad := false, okhBusy := false, okhNew := [], okhStart := 0, okhResult := 0, okhAddr := 0, trimPage := [],
    trimSrc := 0, trimBusy := false, trimTorn := false, trimDefault := false, trimBad := false, trimLoaded := false, trimNew := [], trimStart := 0, trimOffsets := [] }

/-- The sideband controllers after device reset (R513-R521). -/
def Sideband.reset : Sideband :=
  { gpioPol := 0, gpioOe := 0, gpioOut := 0, gpioPin := 0, pinPol := 0, pinOe := 0, uartTx := [], uartRx := [], uartEnd := none, uartOut := [],
    ferr := false, rxovr := false, txovr := false, smRx := [], smDrops := 0, smOffer := none, smTxLen := 0,
    smTxBuf := List.replicate 72 0, smOut := [], qSrc := 0, qDst := 0, qLen := 0, qRun := none, qErr := 0,
    tapIr := 1, tapDr := [], tapPreload := [], tamper := 0 }

/-- The cores after device reset: core 0 at base level, the others held (R296, R311, R328). -/
def coresReset : Vector Core 48 := (Vector.replicate 48 (Core.reset 0 true)).set 0 Core.reset0

/-- The machine right after device reset. -/
def State.reset : State :=
  { now := 0, grade := .fd640S, lean := true, cores := coresReset, pairs := Vector.replicate 24 Pair.reset, mem := [],
    tags := [], fkeys := [], timed := [], bg := [], bgDone := [], bgUsed := (0, []), keyActs := [], eccBad := [], eccSoft := [], keyBad := [], keySoft := [], cfg := Cfg.reset, slath := Slath.reset, ev := EventCtl.reset,
    engines := Vector.replicate 49 Engine.reset, ks := KeyStore.reset none, drbg := Drbg.reset, jn := Journal.reset,
    headSlots := [], link := HostLink.reset, mov := Movers.reset, pw := Power.reset .fd640S, sb := Sideband.reset,
    free := 0, pending := [] }

end Sys2Proof.Machine
end

