-- ==== Sys2Proof/Machine/Mem.lean ====
section
/-! DEFINITION. Memory as one canonical list of bytes by device address, its tags, the key bytes, and the
regions of the address map (R241-R252, R285). A byte that no cell lists reads 0x00 (log entry 4). -/
namespace Sys2Proof.Machine

/-- The byte at an address; 0x00 where none is listed. -/
def memGet : List Host.Cell → Nat → Byte
  | [], _ => 0
  | (k, b) :: r, a => if a = k then b else memGet r a

/-- Memory with the byte at an address replaced, in canonical form. -/
def memSet : List Host.Cell → Nat → Byte → List Host.Cell
  | [], a, b => if b = 0 then [] else [(a, b)]
  | (k, x) :: r, a, b =>
    if a < k then (if b = 0 then (k, x) :: r else (a, b) :: (k, x) :: r)
    else if a = k then (if b = 0 then r else (a, b) :: r)
    else (k, x) :: memSet r a b

/-- n bytes from an address on. -/
def memRead (m : List Host.Cell) (a : Nat) : Nat → List Byte
  | 0 => []
  | n + 1 => memGet m a :: memRead m (a + 1) n

/-- Memory with bytes written from an address on. -/
def memWrite (m : List Host.Cell) (a : Nat) : List Byte → List Host.Cell
  | [] => m
  | b :: bs => memWrite (memSet m a b) (a + 1) bs

/-- Memory with the bytes that are present written from an address on (R218, R401). -/
def memWriteMasked (m : List Host.Cell) (a : Nat) : List (Option Byte) → List Host.Cell
  | [] => m
  | none :: bs => memWriteMasked m (a + 1) bs
  | some b :: bs => memWriteMasked (memSet m a b) (a + 1) bs

/-- The canonical form: addresses strictly rising from a bound on, no cell that holds 0x00. -/
def memWfFrom : Nat → List Host.Cell → Bool
  | _, [] => true
  | lo, (k, b) :: r => decide (lo ≤ k) && decide (b ≠ 0) && memWfFrom (k + 1) r

/-- The canonical form of a memory. -/
def Memory.wf (m : List Host.Cell) : Bool := memWfFrom 0 m

/-! ## The address map (R241, R243, R244, R249) -/

/-- Start of core c's window, which holds its LDS (R244). -/
def ldsBase (c : CoreId) : Nat := 0x100000000 + c.val * 0x100000
/-- Start of core c's LIS in its window. -/
def lisBase (c : CoreId) : Nat := ldsBase c + 0x80000
/-- Start of core c's writable control store in its window. -/
def csBase (c : CoreId) : Nat := ldsBase c + 0xA0000
/-- The size of LDS. -/
def ldsSize : Nat := 0x80000
/-- The LDS offset of the base-level frames (R243). -/
def framesOff : Nat := 0x7F800
/-- The LIS as the owning core sees it. -/
def lisLocal : Nat := 0x100000
/-- The size of the LIS. -/
def lisSize : Nat := 0x20000
/-- The global scratchpad. -/
def globalBase : Nat := 0x10000000000
/-- Its size, 48 MB. -/
def globalSize : Nat := 0x3000000
/-- Control space. -/
def ctlBase : Nat := 0x20000000000
/-- Its size, 256 MB. -/
def ctlSize : Nat := 0x10000000
/-- The data-port windows (R471). -/
def dpwBase : Nat := 0x30000000000
/-- Attached memory. -/
def attBase : Nat := 0x1000000000000
/-- End of usable attached memory and start of the tag table (R249). -/
def attUsable : Nat := 0x10023B7DC0000
/-- Start of the key table (R249). -/
def keyTable : Nat := 0x10023FFDC0000
/-- End of attached memory. -/
def attEnd : Nat := 0x1002400000000
/-- Where the model keeps the MSI-X table of a function other than PF0: the BAR0 page of function f (R429). -/
def hostPage (f : Nat) : Nat := 0x2000000000000 + f * 0x1000

/-- Whether n bytes from a on lie in [lo, lo + size). -/
def within (a n lo size : Nat) : Bool := decide (lo ≤ a) && decide (a + n ≤ lo + size)

/-- The regions that a core can reach (R241, R242), with where the bytes lie in the one device memory. -/
inductive Region where
  | lds (at_ : Nat)
  | lis (at_ : Nat)
  | window (core off : Nat)
  | global (at_ : Nat)
  | control (off : Nat)
  deriving DecidableEq, Repr

/-- R242, R244: the region in which all n bytes from ea on lie, none where they do not lie in one; `regionPasses` asks the rest of a window. -/
def regionOf (c : CoreId) (ea n : Nat) : Option Region :=
  if within ea n 0 ldsSize then some (.lds (ldsBase c + ea))
  else if within ea n lisLocal lisSize then some (.lis (lisBase c + (ea - lisLocal)))
  else if within ea n 0x100000000 0x3000000 then
    let o := ea - 0x100000000
    some (.window (o / 0x100000) (o % 0x100000))
  else if within ea n globalBase globalSize then some (.global ea)
  else if within ea n ctlBase ctlSize then some (.control (ea - ctlBase))
  else none

/-- Whether n bytes from ea on lie in the global scratchpad. -/
def inGlobal (ea n : Nat) : Bool := within ea n globalBase globalSize

/-- Whether n bytes from ea on lie in usable attached memory (R249). -/
def inAttached (ea n : Nat) : Bool := decide (attBase ≤ ea) && decide (ea + n ≤ attUsable)

/-! ## Tags (R38, R39, R249, R251) -/

/-- The 16-byte word of an address. -/
def wordOf (a : Nat) : Nat := a / 16 * 16

/-- The byte of the tag table and the bit in it for an attached word (R249). -/
def attTagByte (a : Nat) : Nat := attUsable + (a - attBase) / 128

/-- The tag of the word at an address. -/
def tagGet (s : State) (a : Nat) : Bool :=
  if attBase ≤ a ∧ a < attUsable then (memGet s.mem (attTagByte a)).getLsbD ((a - attBase) / 16 % 8)
  else s.tags.contains (wordOf a)

/-- Whether an address lies in a LIS or a writable control store, whose ECC word is 4 bytes (R265, R351). -/
def isLisAddr (a : Nat) : Bool :=
  decide (0x100000000 ≤ a) && decide (a < 0x103000000) && decide (0x80000 ≤ a % 0x100000) && decide (a % 0x100000 < 0xA4000)

/-- The state with the tag of the word at an address written; LIS and control store hold none (R38). -/
def tagSet (s : State) (a : Nat) (t : Bool) : State :=
  if attBase ≤ a ∧ a < attUsable then
    { s with mem := memSet s.mem (attTagByte a) (putBit (memGet s.mem (attTagByte a)) ((a - attBase) / 16 % 8) t) }
  else if t && !isLisAddr a then { s with tags := insertNat (wordOf a) s.tags }
  else { s with tags := s.tags.filter (· ≠ wordOf a) }

/-- The tags of k words from a word on, cleared. -/
def clearTagsFrom (s : State) (a : Nat) : Nat → State
  | 0 => s
  | k + 1 => clearTagsFrom (tagSet s a false) (a + 16) k

/-- R39: the tags of every word that n bytes from a on touch, cleared. -/
def clearTags (s : State) (a n : Nat) : State :=
  if n = 0 then s else clearTagsFrom s (wordOf a) ((a + n - 1) / 16 - a / 16 + 1)

/-! ## Bytes of the device (R39, R266, R267) -/

/-- n bytes of device memory. -/
def State.bytes (s : State) (a n : Nat) : List Byte := memRead s.mem a n

/-- The bytes under one error-correcting code at an address (R265, R351, R467). -/
def eccSize (a : Nat) : Nat := if isLisAddr a then 4 else if attBase ≤ a then 32 else 16
/-- The start of the bytes under one code that hold an address (R265, R351, R467). -/
def eccWord (a : Nat) : Nat := a / eccSize a * eccSize a

/-- The first word with an uncorrectable error among n bytes from a on (R268). -/
def eccHit (s : State) (a n : Nat) : Option Nat :=
  s.eccBad.find? fun w => overlaps a n w (eccSize w)

/-- R266, R267, R269: after a write of n bytes, a word written in full loses its error, and one written in part a single-bit error. -/
def eccRepair (s : State) (a n : Nat) : State :=
  { s with eccBad := s.eccBad.filter fun w => !(decide (a ≤ w) && decide (w + eccSize w ≤ a + n)),
           eccSoft := s.eccSoft.filter fun w => !overlaps a n w (eccSize w) }

/-- Bytes written to device memory without touching tags. -/
def putBytes (s : State) (a : Nat) (bs : List Byte) : State :=
  if bs.isEmpty then s else eccRepair { s with mem := memWrite s.mem a bs } a bs.length

/-- Bytes written to device memory, clearing the tag of every word touched (R39). -/
def storeBytes (s : State) (a : Nat) (bs : List Byte) : State := clearTags (putBytes s a bs) a bs.length

/-- A capability written to device memory with its tag (R39). -/
def storeCap (s : State) (a : Nat) (v : TWord) : State := tagSet (putBytes s a (leBytes 16 v.val.toNat)) a v.tag

/-- A capability read from device memory with its tag. -/
def loadCap (s : State) (a : Nat) : TWord := { val := BitVec.ofNat 128 (ofLe (s.bytes a 16)), tag := tagGet s a }

/-- Bytes written where present, clearing the tag of every word written (R40, R218). -/
def storeMasked (s : State) (a : Nat) (bs : List (Option Byte)) : State :=
  let written := (List.range bs.length).filter fun i => (bs.getD i none).isSome
  let s := { s with mem := memWriteMasked s.mem a bs, eccSoft := s.eccSoft.filter fun w => !written.any fun i => eccWord (a + i) == w }
  written.foldl (fun s i => tagSet s (a + i) false) s

/-! ## Storage keys (R285, R286) -/

/-- The frame of an address: global frames by number, attached frames by their key-table address. -/
def keyCell (a : Nat) : Option (Bool × Nat) :=
  if within a 1 globalBase globalSize then some (true, (a - globalBase) / 4096)
  else if inAttached a 1 then some (false, keyTable + (a - attBase) / 65536)
  else none

/-- The key byte of the frame that holds an address. -/
def keyByte (s : State) (a : Nat) : Byte :=
  match keyCell a with
  | some (true, f) => memGet s.fkeys f
  | some (false, k) => memGet s.mem k
  | none => 0

/-- The state with a key byte replaced. -/
def setKeyByte (s : State) (a : Nat) (b : Byte) : State :=
  match keyCell a with
  | some (true, f) => { s with fkeys := memSet s.fkeys f b }
  | some (false, k) => { s with mem := memSet s.mem k b }
  | none => s

/-- R285: whether a key passes on the frame of an address, for a load or a store. -/
def keyPasses (s : State) (key : BitVec 4) (store : Bool) (a : Nat) : Bool :=
  let b := keyByte s a
  key == 0 || key == b.extractLsb' 0 4 || (!store && !b.getLsbD 4)

/-- The size of a frame (R285). -/
def frameSize (a : Nat) : Nat := if attBase ≤ a then 65536 else 4096

/-- The first byte of each frame that n bytes from a on touch: a itself and every frame start after it, at most
fuel of them. -/
def framePoints (a n : Nat) : Nat → List Nat
  | 0 => []
  | fuel + 1 =>
    if n = 0 then [] else
      let fs := frameSize a
      let step := fs - a % fs
      a :: (if n ≤ step then [] else framePoints (a + step) (n - step) fuel)

/-- The first byte that the key rule refuses among n bytes from a on (R285). -/
def keyRefusal (s : State) (key : BitVec 4) (store : Bool) (a n : Nat) : Option Nat :=
  (framePoints a n (n / 4096 + 2)).find? fun p => !keyPasses s key store p

/-- The frames of the global scratchpad that n bytes from a on touch, each with the first byte among them. -/
def globalFrames (a n : Nat) : List (Nat × Nat) :=
  (framePoints a n (n / 4096 + 2)).filterMap fun p => match keyCell p with | some (true, f) => some (f, p) | _ => none

/-- The first byte among n bytes from a on whose frame's key byte holds an uncorrectable error in a copy, 48 for the master table; a check
under key 0 reads no key byte (R265, R268; log entry 104). -/
def keyByteBad (s : State) (copy : Nat) (key : BitVec 4) (a n : Nat) : Option Nat :=
  if key = 0 ∨ s.keyBad.isEmpty then none else ((globalFrames a n).find? fun x => s.keyBad.contains (copy, x.1)).map fun x => x.2

/-- R286: AC set, and WR for a store, in the key byte of the frame that holds an address; a frame write that
falls in the same cycle keeps the bits (R288). -/
def markFrame (s : State) (a : Nat) (store : Bool) : State :=
  let bits : Byte := if store then 0x60 else 0x20
  let s := setKeyByte s a (keyByte s a ||| bits)
  match keyCell a with
  | some (true, f) =>
    { s with keyActs := s.keyActs.map fun (x, c, g, b) => if g = f ∧ x = s.now then (x, c, g, b ||| bits) else (x, c, g, b) }
  | _ => s

/-- R286 over every frame that n bytes from a on touch. -/
def markFrames (s : State) (a n : Nat) (store : Bool) : State :=
  (framePoints a n (n / 4096 + 2)).foldl (fun s p => if (keyCell p).isSome then markFrame s p store else s) s

/-- R288: the key writes whose cycle lies before t, performed in order; each writes every copy, and an error of a copy goes (R265). -/
def settleKeys (t : Nat) (s : State) : State :=
  let due := s.keyActs.filter fun (x, _) => x < t
  let s := { s with keyActs := s.keyActs.filter fun (x, _) => !(x < t) }
  due.foldl (fun s (_, _, f, b) =>
    { s with fkeys := memSet s.fkeys f b, keyBad := s.keyBad.filter fun x => x.2 ≠ f, keySoft := s.keySoft.filter fun x => x.2 ≠ f }) s

/-- A key write put in its place, by cycle and then by core number (R288). -/
def insertKeyAct (x : Nat × CoreId × Nat × Byte) : List (Nat × CoreId × Nat × Byte) → List (Nat × CoreId × Nat × Byte)
  | [] => [x]
  | y :: r => if x.1 < y.1 ∨ (x.1 = y.1 ∧ x.2.1 < y.2.1) then x :: y :: r else y :: insertKeyAct x r

end Sys2Proof.Machine
end

