-- ==== Sys2Proof/Machine/Ops.lean ====
section
/-! DEFINITION. The named operations of the machine: access to a core, writes in flight (R55, R60-R62), system
registers (R123, R124), raising events (R335-R338), messages to the host (R346), error reports (R268-R270), lockup
(R326), and taking an exception (R300-R318) with the return from one (R319-R321). -/
namespace Sys2Proof.Machine

/-! ## Access -/

/-- Core c. -/
def State.core (s : State) (c : CoreId) : Core := s.cores[c]
/-- The state with core c replaced. -/
def State.setCore (s : State) (c : CoreId) (k : Core) : State := { s with cores := s.cores.set c k }
/-- The state with core c changed. -/
def State.modCore (s : State) (c : CoreId) (f : Core → Core) : State := s.setCore c (f (s.core c))
/-- The state with the data registers of core c changed. -/
def State.modRegs (s : State) (c : CoreId) (f : Regs → Regs) : State := s.modCore c fun k => { k with regs := f k.regs }
/-- The state with the exception registers of core c changed. -/
def State.modX (s : State) (c : CoreId) (f : ExcRegs → ExcRegs) : State := s.modCore c fun k => { k with x := f k.x }
/-- The state with the sequencing of core c changed. -/
def State.modSeq (s : State) (c : CoreId) (f : Seq → Seq) : State := s.modCore c fun k => { k with seq := f k.seq }
/-- The state with the memory side of core c changed. -/
def State.modMs (s : State) (c : CoreId) (f : MemSide → MemSide) : State := s.modCore c fun k => { k with ms := f k.ms }
/-- The state with the data port of core c changed. -/
def State.modDp (s : State) (c : CoreId) (f : DataPort → DataPort) : State := s.modCore c fun k => { k with dp := f k.dp }

/-- Pair n. -/
def State.pair (s : State) (n : PairId) : Pair := s.pairs[n]
/-- The state with pair n changed. -/
def State.modPair (s : State) (n : PairId) (f : Pair → Pair) : State := { s with pairs := s.pairs.set n (f s.pairs[n]) }

/-- The pair that a core belongs to by its number (R399). -/
def pairOf (c : CoreId) : PairId := ⟨c.val / 2, by omega⟩
/-- The even core of a pair. -/
def evenCore (n : PairId) : CoreId := ⟨2 * n.val, by omega⟩
/-- The odd core of a pair. -/
def oddCore (n : PairId) : CoreId := ⟨2 * n.val + 1, by omega⟩
/-- Whether a core runs in a formed pair (R399). -/
def paired (s : State) (c : CoreId) : Bool := (s.pair (pairOf c)).formed
/-- Whether a core is the odd core of a formed pair. -/
def isOdd (s : State) (c : CoreId) : Bool := paired s c && decide (c.val % 2 = 1)
/-- Whether a core is the even core of a formed pair. -/
def isEven (s : State) (c : CoreId) : Bool := paired s c && decide (c.val % 2 = 0)
/-- The core that holds the event bits of a core: the even core of its pair (R345). -/
def evCore (s : State) (c : CoreId) : CoreId := if isOdd s c then evenCore (pairOf c) else c

/-- The number of cores of a grade (R1, R2). -/
def coreCount : Grade → Nat
  | .fd480S => 36
  | _ => 48
/-- Whether a core is present (R1). -/
def present (s : State) (c : CoreId) : Bool := decide (c.val < coreCount s.grade)
/-- Whether an engine is present (R1, R2, R377). -/
def enginePresent (s : State) (e : Nat) : Bool :=
  decide (e ≤ 48) && !(s.grade == .fd480S && decide (24 ≤ e) && decide (e ≤ 31))

/-- The cc that a time in ns takes (R6). -/
def nsToCc (s : State) (ns : Nat) : Nat := if s.lean then ns else 2 * ns

/-- A free value: the count is advanced, so that the next draw is another one. -/
def draw (s : State) : Nat × State := (s.free, { s with free := s.free + 1 })

/-- n random bytes of the DRBG (R394). -/
def drawBytes (s : State) (n : Nat) : List Byte × State :=
  ((List.range n).map fun i => Config.randomByte (s.free + i), { s with free := s.free + n })

/-- The cycles of a crossing into the always-on domain, 40 or 60 ns (R474). -/
def drawAlwaysOn (s : State) : Nat × State :=
  (nsToCc s (if Config.lateCrossing s.free then 60 else 40), { s with free := s.free + 1 })

/-- The extra cycles, 2 or 3, of a crossing into the compute complex (R474). -/
def drawCompute (s : State) : Nat × State :=
  (if Config.lateCrossing s.free then 3 else 2, { s with free := s.free + 1 })

/-! ## STATUS (R125, R297) -/

/-- STATUS.LG. -/
def stLG (st : BitVec 32) : Bool := st.getLsbD 27
/-- STATUS.LSV. -/
def stLSV (st : BitVec 32) : Bool := st.getLsbD 26
/-- STATUS.VM. -/
def stVM (st : BitVec 32) : Bool := st.getLsbD 25
/-- STATUS.PA. -/
def stPA (st : BitVec 32) : Bool := st.getLsbD 24
/-- STATUS.FM. -/
def stFM (st : BitVec 32) : Bool := st.getLsbD 23
/-- STATUS.OE. -/
def stOE (st : BitVec 32) : Bool := st.getLsbD 22
/-- STATUS.DZE. -/
def stDZE (st : BitVec 32) : Bool := st.getLsbD 21
/-- STATUS.IPL. -/
def stIPL (st : BitVec 32) : Nat := (st.extractLsb' 16 4).toNat
/-- STATUS.KEY. -/
def stKEY (st : BitVec 32) : BitVec 4 := st.extractLsb' 28 4
/-- The flags, STATUS[5:0]: N Z C V DX DV from bit 0 up. -/
def stFlags (st : BitVec 32) : BitVec 6 := st.extractLsb' 0 6

/-- The levels of R297. -/
inductive Level where
  | base | native | legSup | legTask
  deriving DecidableEq, Repr

/-- The rank of a level (R297). -/
def Level.rank : Level → Nat
  | .base => 3
  | .native => 2
  | .legSup => 1
  | .legTask => 0

/-- The level that a STATUS and a base depth give (R297). -/
def levelOf (st : BitVec 32) (depth : Nat) : Level :=
  if 1 ≤ depth then .base else if !stLG st then .native else if stLSV st then .legSup else .legTask

/-- The level of core c (R297). -/
def Core.level (k : Core) : Level := levelOf k.x.status k.x.depth
/-- Whether core k is at base level. -/
def Core.atBase (k : Core) : Bool := k.level == .base
/-- Whether core k is at legacy level. -/
def Core.legacy (k : Core) : Bool := k.level == .legSup || k.level == .legTask

/-- Whether the core can issue at all: present, not held in reset, not locked up (R1, R326, R330). -/
def runs (s : State) (c : CoreId) : Bool :=
  present s c && !(s.core c).seq.inReset && !(s.core c).x.locked && !s.pw.resetHeld

/-! ## What comes about in a fixed cycle -/

/-- Whether a timed act comes before another: by cycle, rank and core number, the order of R378, R410 and R453. -/
def Timed.before (x y : Timed) : Bool :=
  decide (x.cycle < y.cycle) ||
  (x.cycle == y.cycle && (decide (x.rank < y.rank) || (x.rank == y.rank && decide (x.core < y.core))))

/-- A timed act put in its place, behind those that it does not come before. -/
def insertTimed (x : Timed) : List Timed → List Timed
  | [] => [x]
  | y :: r => if x.before y then x :: y :: r else y :: insertTimed x r

/-- An act of core c that is to come about in a cycle. -/
def schedule (c : CoreId) (cycle rank : Nat) (w : TimedDo) (s : State) : State :=
  { s with timed := insertTimed { cycle := cycle, rank := rank, core := c, what := w } s.timed }

/-- Whether a timed act is a unit's and not a core's. -/
def TimedDo.ofUnit : TimedDo → Bool
  | .send _ _ _ => true
  | .grant => true
  | .engStatus _ _ => true
  | .pins _ _ _ => true
  | .sense _ _ => true
  | _ => false

/-- The acts of core c taken out. -/
def unschedule (c : CoreId) (s : State) : State := { s with timed := s.timed.filter fun x => x.core ≠ c || x.what.ofUnit }

/-- A background request to be sent in its fabric cycle, under a key or none, checked for a load or for a store (R261, R528). -/
def sendBg (r : BgReq) (key : Option (BitVec 4)) (store : Bool) (s : State) : State :=
  schedule 0 (2 * r.sent) 0 (.send r key store) s

/-! ## Writes in flight (R55, R60-R62, R82, R233) -/

/-- The value MTS leaves in VL (R191). -/
def vlOf (v : Nat) : BitVec 13 :=
  if v < 128 then 128 else if v > 4096 then 4096 else BitVec.ofNat 13 (v / 128 * 128)

/-- The value MTS leaves in DCTL: reserved bits 0, an RM of 6 or 7 not written (R134). -/
def dctlOf (old v : BitVec 32) : BitVec 32 :=
  let hi := v &&& 0x00000170
  if (v.extractLsb' 0 3).toNat < 6 then hi ||| (v &&& 7) else hi ||| (old &&& 7)

/-- STATUS as MTS leaves it: LG and LSV kept, reserved bits 0 (R125, R126). -/
def statusOf (old v : BitVec 32) : BitVec 32 := (v &&& 0xF3EF003F) ||| (old &&& 0x0C000000)

/-- An MTS of DPDATA: the low 2^INC bytes appended where they fit, an overrun otherwise (R464). -/
def dpAppend (d : DataPort) (v : Word) : DataPort :=
  let n := 2 ^ d.inc.toNat
  if d.dir && decide (d.cnt.toNat + n ≤ 64 * 2 ^ d.burst.toNat) then
    { d with buf := d.buf.take d.cnt.toNat ++ leBytes n v.toNat, cnt := d.cnt + BitVec.ofNat 13 n, len := d.cnt.toNat + n }
  else { d with err := 3 }

/-- The fields DIR, INC and BURST of DPCTL as MTS leaves them (R461). -/
def dpFields (d : DataPort) (v : BitVec 64) : DataPort :=
  { d with dir := v.getLsbD 0,
           inc := if (v.extractLsb' 4 3).toNat ≤ 4 then v.extractLsb' 4 3 else d.inc,
           burst := if (v.extractLsb' 8 3).toNat ≤ 6 then v.extractLsb' 8 3 else d.burst }

/-- A system register written by MTS (R123, R124): each register takes its writable bits. -/
def sysWrite (k : Core) (sr : BitVec 6) (v : TWord) : Core :=
  let lo32 : BitVec 32 := v.val.setWidth 32
  let lo64 : BitVec 64 := v.val.setWidth 64
  match sr.toNat with
  | 0x00 => { k with x := { k.x with status := statusOf k.x.status lo32 } }
  | 0x01 => { k with x := { k.x with cause := v.val.setWidth 8 } }
  | 0x02 => { k with x := { k.x with xpc := v } }
  | 0x03 => { k with x := { k.x with xstat := lo32 &&& 0xFFFF01FF } }
  | 0x04 => { k with x := { k.x with xaddr := v.val.setWidth 52 } }
  | 0x05 => { k with x := { k.x with xinfo := lo64 } }
  | 0x06 => { k with x := { k.x with xframe := v } }
  | 0x07 => { k with x := { k.x with ivec := v } }
  | 0x08 => { k with x := { k.x with bpc := v } }
  | 0x09 => { k with x := { k.x with bstat := lo32 &&& 0xFFFF03FF } }
  | 0x0A => { k with x := { k.x with bcause := v.val.setWidth 8 } }
  | 0x0B => { k with x := { k.x with binfo := lo64 &&& 0xFFFFFFFF0000FF0F } }
  | 0x10 => { k with regs := { k.regs with vl := vlOf lo32.toNat } }
  | 0x11 => { k with regs := { k.regs with fpctl := lo32 &&& 0x00000F8F } }
  | 0x12 => { k with regs := { k.regs with fpflags := v.val.setWidth 5 } }
  | 0x13 => { k with regs := { k.regs with dctl := dctlOf k.regs.dctl lo32 } }
  | 0x14 => { k with dp := { k.dp with addr := v } }
  | 0x15 => { k with dp := dpFields k.dp lo64 }
  | 0x16 => { k with dp := dpAppend k.dp v.val }
  | 0x17 => { k with dp := { k.dp with stall := lo64 } }
  | _ => k

/-- General register r of a core: g0 reads as the null capability (R18). -/
def Core.reg (k : Core) (r : Reg) : TWord := if r = 0 then TWord.null else k.regs.g[r]

/-- A general register written; a write to g0 has no effect (R18). -/
def Core.setReg (k : Core) (r : Reg) (v : TWord) : Core :=
  if r = 0 then k else { k with regs := { k.regs with g := k.regs.g.set r v } }

/-- The flags of STATUS written under a mask; the other flags stay (R62). -/
def setFlags (st : BitVec 32) (mask vals : BitVec 6) : BitVec 32 :=
  (st &&& ~~~(mask.setWidth 32)) ||| ((vals &&& mask).setWidth 32)

/-- A write in flight completes. -/
def applyWrite (k : Core) : WriteWhat → Core
  | .reg r v => k.setReg r v
  | .flags m v => { k with x := { k.x with status := setFlags k.x.status m v } }
  | .sys sr v => sysWrite k sr v
  | .fpOr b => { k with regs := { k.regs with fpflags := k.regs.fpflags ||| b } }

/-- A write put in its place: by completion cycle, then by order of issue (R60). -/
def insertWrite (w : PendingWrite) : List PendingWrite → List PendingWrite
  | [] => [w]
  | x :: r => if w.due < x.due ∨ (w.due = x.due ∧ w.seq < x.seq) then w :: x :: r else x :: insertWrite w r

/-- The writes of a list applied in order. -/
def applyAll (k : Core) : List PendingWrite → Core
  | [] => k
  | w :: r => applyAll (applyWrite k w.what) r

/-- Every write whose completion cycle is t or earlier completes (R60, R61). -/
def retire (t : Nat) (k : Core) : Core :=
  let k' := applyAll k (k.seq.inflight.filter fun w => w.due ≤ t)
  { k' with seq := { k'.seq with inflight := k.seq.inflight.filter fun w => !(w.due ≤ t) } }

/-- A write with a place in the order of issue that was taken earlier. -/
def pushAt (c : CoreId) (due seq : Nat) (what : WriteWhat) (s : State) : State :=
  s.modSeq c fun q => { q with inflight := insertWrite { due := due, seq := seq, what := what } q.inflight }

/-- A place in the order of issue (R60). -/
def takeSeq (c : CoreId) (s : State) : Nat × State :=
  ((s.core c).seq.wseq, s.modSeq c fun q => { q with wseq := q.wseq + 1 })

/-- A write of the instruction that issues now, completing in cycle `due` (R55). -/
def push (c : CoreId) (due : Nat) (what : WriteWhat) (s : State) : State :=
  let (n, s) := takeSeq c s
  pushAt c due n what s

/-- A result written to a general register, untagged (R20), visible from cycle `due` on. -/
def pushReg (c : CoreId) (due : Nat) (r : Reg) (v : Word) (s : State) : State := push c due (.reg r (TWord.plain v)) s

/-- A capability result written to a general register. -/
def pushCap (c : CoreId) (due : Nat) (r : Reg) (v : TWord) (s : State) : State := push c due (.reg r v) s

/-- Flags written, visible from cycle `due` on (R62). -/
def pushFlags (c : CoreId) (due : Nat) (mask vals : BitVec 6) (s : State) : State := push c due (.flags mask vals) s

/-- The mask of N. -/
def fN : BitVec 6 := 1
/-- The mask of Z. -/
def fZ : BitVec 6 := 2
/-- The mask of C. -/
def fC : BitVec 6 := 4
/-- The mask of V. -/
def fV : BitVec 6 := 8
/-- The mask of DX. -/
def fDX : BitVec 6 := 16
/-- The mask of DV. -/
def fDV : BitVec 6 := 32
/-- A flag's bit where the condition holds. -/
def flag (m : BitVec 6) (b : Bool) : BitVec 6 := if b then m else 0

/-! ## Messages to the host (R346, R429) -/

/-- Where the MSI-X table entry of a device vector lies: the function, the index, the address (R346, R429). -/
def msixEntry (v : Nat) : Nat × Nat × Nat :=
  if v < 64 then (0, v, ctlBase + 0x590000 + 16 * v)
  else
    let f := 1 + (v - 64) / 31
    let i := (v - 64) % 31
    (f, i, hostPage f + 0x800 + 16 * i)

/-- A message given to the host-link domain. -/
def hostSend (m : HostMsg) (s : State) : State := { s with link := { s.link with out := s.link.out ++ [m] } }

/-- A pending bit of a function written. -/
def setMsixPend (f i : Nat) (b : Bool) (s : State) : State :=
  if h : f < 65 then
    { s with link := { s.link with msixPend := s.link.msixPend.set f (putBit s.link.msixPend[f] i b) } }
  else s

/-- Whether the MSI-X entry at an address is masked. Memory holds its mask bit inverted, so that an entry that the host has
not written is masked, as PCI Express has it (R429; log entry 55). -/
def entryMasked (s : State) (a : Nat) : Bool := !(memGet s.mem (a + 12)).getLsbD 0

/-- An MSI-X message of a device vector: sent, or its pending bit set where the entry or the function is
masked (R346). -/
def msixSend (v : Nat) (s : State) : State :=
  let (f, i, a) := msixEntry v
  let masked := entryMasked s a || s.link.msixMask.getLsbD f
  if masked then setMsixPend f i true s
  else hostSend (.msix v (BitVec.ofNat 64 (ofLe (s.bytes a 8))) (BitVec.ofNat 32 (ofLe (s.bytes (a + 8) 4)))) s

/-! ## Events (R333-R341) -/

/-- The numbers 0 to 511 of the event sources (R333). -/
def evNo (n : Nat) : EventId := ⟨n % 512, by omega⟩

/-- Events that every present core receives and base entry takes (R302, R337). -/
def isBaseEvent (n : EventId) : Bool := n.val == 336 || n.val == 338 || n.val == 339

/-- EVROUTE.PRIO. -/
def evPrio (s : State) (n : EventId) : Nat := (s.ev.route[n].extractLsb' 52 4).toNat
/-- EVROUTE.BCAST. -/
def evBcast (s : State) (n : EventId) : Bool := s.ev.route[n].getLsbD 49
/-- EVROUTE.LVL; the base events are always delivered by edge (R337). -/
def evLevel (s : State) (n : EventId) : Bool := s.ev.route[n].getLsbD 48 && !isBaseEvent n

/-- All core numbers in ascending order. -/
def allCores : List CoreId := List.finRange 48

/-- The present target cores of a source; a pair counts as its even core (R334, R345). -/
def evTargets (s : State) (n : EventId) : List CoreId :=
  let raw := allCores.filter fun c => s.ev.route[n].getLsbD c.val && present s c
  (raw.map fun c => evCore s c).eraseDups

/-- A core that one-of-set routing passes over: locked up or held (R336). -/
def passedOver (s : State) (c : CoreId) : Bool := (s.core c).x.locked || (s.core c).seq.inReset

/-- A list turned so that it starts with the first core above the one chosen last (R336). -/
def rotation (l : List CoreId) (last : Option CoreId) : List CoreId :=
  match last with
  | none => l
  | some p => l.filter (fun c => p < c) ++ l.filter (fun c => !(p < c))

/-- Within a cycle EVACK and EVCLR come before a raise (R340). -/
def EvDo.rank : EvDo → Nat
  | .raise _ => 1
  | _ => 0

/-- An act put in its place: by cycle, EVACK and EVCLR before a raise (R340). -/
def insertAct (x : EvAct) : List EvAct → List EvAct
  | [] => [x]
  | y :: r =>
    if x.due < y.due ∨ (x.due = y.due ∧ x.what.rank < y.what.rank)
    then x :: y :: r else y :: insertAct x r

/-- A change of the event bits of a core that takes effect in cycle `due` (R338, R343). -/
def evSchedule (due : Nat) (c : CoreId) (n : EventId) (w : EvDo) (s : State) : State :=
  { s with ev := { s.ev with acts := insertAct { due := due, core := c, ev := n, what := w } s.ev.acts } }

/-- A raise of source n in cycle r that reaches the cores of a list; a held core is not reached (R338, R341). -/
def raiseTo (n : EventId) (r : Nat) (lvl : Bool) (cs : List CoreId) (s : State) : State :=
  cs.foldl (fun s c => if (s.core c).seq.inReset then s else evSchedule (r + 2) c n (.raise lvl) s) s

/-- A raise of source n in cycle r that reaches one core: the first target core of the rotation that is not passed over; with none, an empty
TARGET too, it is held at the controller (R336; log entry 108). -/
def raiseOne (n : EventId) (r : Nat) (s : State) : State :=
  match (rotation (evTargets s n) s.ev.lastCore[n]).find? (fun c => !passedOver s c) with
  | some c => raiseTo n r (evLevel s n) [c] { s with ev := { s.ev with lastCore := s.ev.lastCore.set n (some c) } }
  | none => { s with ev := { s.ev with held := putBit s.ev.held n.val true } }

/-- A raise of source n in cycle r goes to the cores that its routing names (R334-R337). -/
def raiseCores (n : EventId) (r : Nat) (s : State) : State :=
  if isBaseEvent n then raiseTo n r false (allCores.filter fun c => present s c && decide (evCore s c = c)) s
  else if evPrio s n = 0 then s
  else if evBcast s n then raiseTo n r (evLevel s n) (evTargets s n) s
  else raiseOne n r s

/-- The line of source n rises in cycle r: the event is raised to the cores and, where EVHOST.HEN = 1, to the host (R335,
R336, R346). -/
def rise (n : EventId) (r : Nat) (s : State) : State :=
  let s := raiseCores n r s
  if s.ev.host[n].getLsbD 31 then msixSend (s.ev.host[n].extractLsb' 0 11).toNat s else s

/-- A pulse source drives its line in cycle r (R333, R335): a rise where the line was 0 in the cycle before; where it was 1
there, a raise under level delivery only; nothing more where it is driven in r already. -/
def raise (n : EventId) (r : Nat) (s : State) : State :=
  let last := s.ev.lastPulse[n]
  let s := { s with ev := { s.ev with lastPulse := s.ev.lastPulse.set n (max last (r + 2)) } }
  if last = r + 2 then s
  else if last = r + 1 ∨ last = r + 3 then (if evLevel s n then raiseCores n r s else s)
  else rise n r s

/-- An event of a pulse source raised in the current cycle. -/
def pulse (n : Nat) (s : State) : State := raise (evNo n) s.now s

/-- One change of the bits of a core under R338 and R340. -/
def applyEvDo (k : Core) (n : EventId) : EvDo → Core
  | .ack => { k with evS := putBit k.evS n.val false }
  | .clr => { k with evP := putBit k.evP n.val false }
  | .raise lvl => if lvl && k.evS.getLsbD n.val then k else { k with evP := putBit k.evP n.val true }

/-- The acts of a list that are due by cycle t are performed; a raise of the current cycle that would merge
waits, so that an acceptance of that cycle leaves it standing (R338, R340). -/
def settleActs (t : Nat) : List EvAct → State → List EvAct × State
  | [], s => ([], s)
  | a :: r, s =>
    let k := s.core a.core
    let merges := match a.what with | .raise false => a.due == t && k.evP.getLsbD a.ev.val | _ => false
    if a.due ≤ t ∧ !merges then settleActs t r (s.setCore a.core (if k.seq.inReset then k else applyEvDo k a.ev a.what))
    else
      let (l, s) := settleActs t r s
      (a :: l, s)

/-- The raise cycles of a span up to a cycle: how many they are. -/
def LevelSpan.upTo (x : LevelSpan) (t : Nat) : Nat :=
  (match x.stop with | some z => min (t + 1) z | none => t + 1) - x.first

/-- A span once its raise cycles up to a cycle are performed; none where no more are to come. -/
def LevelSpan.later (x : LevelSpan) (t : Nat) : Option LevelSpan :=
  match x.stop with
  | some z => if z ≤ t + 1 ∨ z ≤ x.first then none else some { x with first := max x.first (t + 1) }
  | none => some { x with first := max x.first (t + 1) }

/-- The raises of a held line under level delivery in a number of cycles one after the other, performed on the cores (R335, R336, R338). -/
def levelRaises (n : EventId) (cycles : Nat) (s : State) : State :=
  if cycles = 0 ∨ !evLevel s n ∨ evPrio s n = 0 then s
  else
    let cs := (rotation (evTargets s n) s.ev.lastCore[n]).filter fun c => !passedOver s c
    let hit := if evBcast s n then evTargets s n else cs.take cycles
    let s := hit.foldl (fun s c => s.modCore c fun k => if k.seq.inReset then k else applyEvDo k n (.raise true)) s
    if evBcast s n then s
    else match cs[(cycles - 1) % (max cs.length 1)]? with
      | some c => { s with ev := { s.ev with lastCore := s.ev.lastCore.set n (some c) } }
      | none => { s with ev := { s.ev with held := putBit s.ev.held n.val true } }

/-- The raises of held lines under level delivery, for the raise cycles up to t - 2 (R335, R338). -/
def settleLevels (t : Nat) (s : State) : State :=
  if s.ev.levels.isEmpty ∨ t < 2 then s
  else
    let s1 := s.ev.levels.foldl (fun s x => levelRaises x.src (x.upTo (t - 2)) s) s
    { s1 with ev := { s1.ev with levels := s.ev.levels.filterMap fun x => x.later (t - 2) } }

/-- R392: the key store as of fabric cycle f, while a zeroisation overwrites it with zeros over 4,096 fabric cycles, 16 slots in each in
ascending order (log entry 22); EPOCH advances in the first of them. A key is gone once its first slot is. -/
def sweepStore (f : Nat) (k : KeyStore) : KeyStore :=
  match k.sweep with
  | none => k
  | some (z, n) =>
    if f ≤ z then k
    else
      let m := min 65536 (16 * (f - z))
      let gone (x : Nat) : Bool := decide (n ≤ x) && decide (x < m)
      { k with keys := k.keys.filter fun x => !gone x.slot, gens := k.gens.filter fun x => !gone x.1,
               retired := k.retired.filter fun x => !gone x, badSlots := k.badSlots.filter fun x => !gone x,
               softSlots := k.softSlots.filter fun x => !gone x, epoch := if n = 0 then k.epoch + 1 else k.epoch,
               sweep := if m = 65536 then none else some (z, m) }

/-- The units as of cycle t: key writes, a zeroisation, event bits and level lines brought up to date, and the time advanced. -/
def settleUnits (t : Nat) (s : State) : State :=
  let s := settleKeys t s
  let s := { s with ks := sweepStore (t / 2) s.ks }
  let (l, s) := settleActs t s.ev.acts { s with ev := { s.ev with acts := [] } }
  let s := settleLevels t { s with ev := { s.ev with acts := l } }
  { s with now := max s.now t }

/-- The spans of held lines with line n driven to a level from cycle r on (R335). -/
def driveSpans (n : EventId) (b : Bool) (r : Nat) (l : List LevelSpan) : List LevelSpan :=
  if b then l ++ [{ src := n, first := r, stop := none }]
  else l.map fun x => if x.src = n ∧ x.stop.isNone then { x with stop := some r } else x

/-- A held line driven to a level in cycle r; its rise is a raise (R335). -/
def setLine (n : Nat) (b : Bool) (r : Nat) (s : State) : State :=
  if s.ev.line.getLsbD n = b then s
  else
    let lv := evLevel s (evNo n)
    let s := { s with ev := { s.ev with line := putBit s.ev.line n b, levels := driveSpans (evNo n) b r s.ev.levels } }
    if b then (if lv then (if s.ev.host[evNo n].getLsbD 31 then msixSend (s.ev.host[evNo n].extractLsb' 0 11).toNat s else s)
               else rise (evNo n) r s) else s

/-! ## Uncorrectable errors (R268-R270) -/

/-- ECCADDR and UECNT take an uncorrectable error; event 342 is held while VALID is set (R270, R333). -/
def recordEcc (a : Nat) (s : State) : State :=
  let sl := { s.slath with uecnt := satAdd s.slath.uecnt 1 }
  if sl.eccValid then { s with slath := sl }
  else setLine 342 true s.now { s with slath := { sl with eccValid := true, eccAddr := BitVec.ofNat 52 a } }

/-! ## Lockup (R326, R327) -/

/-- The lockup of one core: issue stops and the LOCK bit is set. -/
def lockOne (c : CoreId) (s : State) : State :=
  s.modCore c fun k => { k with x := { k.x with locked := true } }

/-- A core locks up in cycle t, with its partner in a formed pair; the line of event 337 rises after the two
crossings (R326, R327). -/
def lockup (c : CoreId) (t : Nat) (s : State) : State :=
  let s := if paired s c then lockOne (evenCore (pairOf c)) (lockOne (oddCore (pairOf c)) s) else lockOne c s
  let (d1, s) := drawAlwaysOn s
  let (d2, s) := drawCompute s
  setLine 337 true (t + d1 + d2) s

/-! ## MACHINE_CHECK due on a core (R268, R269, R304, R326) -/

/-- A core locks up in cycle t, now or as that cycle comes (R326). -/
def lockupAt (c : CoreId) (t : Nat) (s : State) : State :=
  if t ≤ s.now then lockup c t s else schedule c t 0 .lockup s

/-- A MACHINE_CHECK falls due on a core in a cycle; within a base entry it locks the core up (R326). -/
def machineCheck (c : CoreId) (t : Nat) (info : Nat) (baddr : Nat) (s : State) : State :=
  let q := (s.core c).seq
  if !present s c || q.inReset || (s.core c).x.locked then s
  else if 0 < q.entryEnd ∧ t ≤ q.entryEnd ∧ q.entryEnd ≤ t + 13 then lockupAt c t s
  else s.modSeq c fun q =>
    { q with mcDue := q.mcDue ++ [{ cycle := t, info := BitVec.ofNat 32 info, baddr := BitVec.ofNat 52 baddr }] }

/-- R268: an uncorrectable error in data that core c consumes, on both cores of a pair. -/
def consumedEcc (c : CoreId) (t info a : Nat) (s : State) : State :=
  let s := recordEcc a s
  if paired s c then machineCheck (evenCore (pairOf c)) t info a (machineCheck (oddCore (pairOf c)) t info a s)
  else machineCheck c t info a s

/-- The core named in ECCMC.MCCORE; an absent one is read as 0 (R270). -/
def mcCore (s : State) : CoreId :=
  if h : s.slath.mccore.toNat < coreCount s.grade then
    ⟨s.slath.mccore.toNat, by cases hg : s.grade <;> simp [coreCount, hg] at h <;> omega⟩
  else 0

/-- R269: an error that no core consumes, reported to MCCORE. -/
def reportedEcc (a : Nat) (s : State) : State :=
  let s := recordEcc a s
  machineCheck (mcCore s) s.now 5 a s

/-- The words with an uncorrectable error that a write of n bytes from a on touches without covering them (R267). -/
def partWords (s : State) (a n : Nat) : List Nat :=
  s.eccBad.filter fun w =>
    overlaps a n w (eccSize w) && !(decide (a ≤ w) && decide (w + eccSize w ≤ a + n))

/-- R267, R269: a store of part of a word that holds an uncorrectable error is reported; the word keeps it. -/
def partialEcc (a n : Nat) (s : State) : State := (partWords s a n).foldl (fun s w => reportedEcc w s) s

/-! ## Taking an exception (R300-R318) -/

/-- R312: XFRAME is valid. -/
def xframeValid (x : TWord) : Bool :=
  match capBounds x.val with
  | none => false
  | some b =>
    let a := (capAddr x.val).toNat
    x.tag && capOtype x.val == 0 && hasPerm x.val permST && hasPerm x.val permSTC &&
    decide (b.base % 128 = 0) && decide (a % 128 = 0) && decide (b.base ≤ a) && decide (a + 128 ≤ b.top) &&
    decide (b.top ≤ framesOff)

/-- R315: IVEC is valid. -/
def ivecValid (v : TWord) : Bool :=
  let a := (capAddr v.val).toNat
  let o := (capOtype v.val).toNat
  v.tag && decide (1 ≤ o) && decide (o ≤ 767) && hasPerm v.val permEX && decide (a % 4 = 0) &&
  inBounds v.val a 4 && within a 4 lisLocal lisSize

/-- R314: XFRAME advanced by one frame. -/
def frameAdvance (x : TWord) : TWord :=
  match capBounds x.val with
  | none => x
  | some b =>
    let a := (capAddr x.val).toNat + 128
    { x with val := setAddr x.val (BitVec.ofNat 52 (if a + 128 > b.top then b.base else a)) }

/-- R314: XFRAME retreated by one frame. -/
def frameRetreat (x : TWord) : TWord :=
  match capBounds x.val with
  | none => x
  | some b =>
    let a := (capAddr x.val).toNat
    let n := (b.top - b.base) / 128
    { x with val := setAddr x.val (BitVec.ofNat 52 (if a = b.base then b.base + 128 * (n - 1) else a - 128)) }

/-- R316: the STATUS that both entries install. -/
def entryStatus (st : BitVec 32) : BitVec 32 := (st &&& 0x3F) ||| 0x008F0000

/-- The branch record of R308: the STATUS bits BD, BSLOT and BCI, and frame words 0x30 and 0x40. -/
structure BranchRecord where
  bits : BitVec 32
  target : TWord
  invoked : TWord
  deriving DecidableEq, Repr

/-- R308: the record of a taken branch whose delay slots have not all issued. XPC may name an IMM prefix, one
slot before the instruction at the boundary. -/
def branchRecord (b : Option Branch) (back : Bool) : BranchRecord :=
  match b with
  | some b =>
    let left := b.left + (if back then 1 else 0)
    if b.taken && decide (1 ≤ left) then
      { bits := 0x100 ||| (if left ≥ 2 then 0 else 0x80) ||| (if b.invoked.isSome then 0x40 else 0),
        target := b.target, invoked := b.invoked.getD TWord.null }
    else { bits := 0, target := TWord.null, invoked := TWord.null }
  | none => { bits := 0, target := TWord.null, invoked := TWord.null }

/-- R313, R317, R318: the five words of a frame at an LDS offset of core c, written in cycles A + 4 to A + 8. -/
def writeFrame (c : CoreId) (a0 off : Nat) (pc : TWord) (stat : BitVec 32) (code : BitVec 8) (info : BitVec 64)
    (addr : Addr) (r : BranchRecord) (s : State) : State :=
  let a := ldsBase c + off
  let word (i : Nat) (bs : List Byte) (tag : Option Bool) : State → State := schedule c (a0 + 4 + i) 2 (.put (a + 16 * i) bs tag)
  let cap (i : Nat) (v : TWord) : State → State := word i (leBytes 16 v.val.toNat) (some v.tag)
  cap 4 r.invoked (cap 3 r.target (word 2 (leBytes 16 addr.toNat) none
    (word 1 (leBytes 4 stat.toNat ++ [code, 0, 0, 0] ++ leBytes 8 info.toNat) none (cap 0 pc s))))

/-- The saved status of an entry: STATUS with the branch record in bits [9:6] (R310). -/
def savedStatus (st : BitVec 32) (r : BranchRecord) : BitVec 32 := (st &&& 0xFFFF003F) ||| r.bits

/-- What an entry discards: the branch, shadow, IMM and RPT state, a hold, an XOP or a string instruction in progress, and
what the instruction was waiting for. The first instruction of the handler issues at A + 14 (R317). -/
def clearFlow (a : Nat) (q : Seq) : Seq :=
  { q with branch := none, invoke := none, shadow := none, imm := none, rpt := none, hold := none, micro := none,
           str := none, trap := none, joinUntil := none, noAccept := false, nextIssue := a + 14, deAt := a + 13 }

/-- STATUS as an ended mode shadow installs it: as a write that completes before those of its shadow (R82, R83). -/
def installShadow (k : Core) : Core :=
  match k.seq.shadow with
  | some sh =>
    { k with x := { k.x with status := statusOf k.x.status sh.value }, seq := { k.seq with shadow := none } }
  | none => k

/-- The g31 of a CINVOKE, as a write that completes in the cycle in which its target issues (R283). -/
def installInvoke (t : Nat) (k : Core) : Core :=
  match k.seq.invoke with
  | some (n, v) =>
    { k with seq := { k.seq with invoke := none,
                                 inflight := insertWrite { due := t, seq := n, what := .reg 31 v } k.seq.inflight } }
  | none => k

/-- The core as an instruction that issues at t reads it (R60): a shadow whose three instructions have issued ends
here, and one that an entry cuts short (`ends`) too. -/
def settleCore (ends : Bool) (t : Nat) (k : Core) : Core :=
  let k := retire (t - 1) k
  let k := match k.seq.shadow with
    | some sh => if ends || sh.left == 0 then installShadow k else k
    | none => k
  retire t (installInvoke t k)

/-- STATUS as the instruction at the boundary in cycle a runs under it (R81). -/
def Core.modeStatus (k : Core) (a : Nat) : BitVec 32 := (settleCore false a k).x.status

/-- The core as of the cycle in which an entry saves STATUS (R317). -/
def entryCore (a : Nat) (k : Core) : Core := retire (a + 3) (settleCore true a k)

/-- R317, R318: base entry in cycle A with a base cause, BINFO's fields and BADDR; at depth 8 the core locks up,
and it does as a MACHINE_CHECK falls due during the entry (R326). -/
def enterBase (c : CoreId) (a : Nat) (code : BitVec 8) (info : BitVec 64) (pc : Addr) (back : Bool) (baddr : Addr)
    (s : State) : State :=
  let s := s.modCore c (entryCore a)
  let k := s.core c
  let d := k.x.depth
  if 8 ≤ d then lockup c a s
  else
    let r := branchRecord k.seq.branch back
    let pcw : TWord := { k.x.pcc with val := setAddr k.x.pcc.val pc }
    let st := savedStatus k.x.status r ||| (if 1 ≤ d then 0x200 else 0)
    let s := match k.seq.mcDue.find? fun m => decide (a ≤ m.cycle) && decide (m.cycle ≤ a + 13) with
      | some m => lockupAt c m.cycle s
      | none => s
    let s := writeFrame c a (framesOff + 0x100 * d) pcw st code info baddr r s
    s.modCore c fun k =>
      { k with
        x := { k.x with bpc := pcw, bstat := st, bcause := code, binfo := info, status := entryStatus k.x.status,
                        pcc := { rootCap with val := setAddr rootCap.val 0x100040 }, depth := d + 1 },
        seq := { clearFlow a k.seq with entryEnd := a + 13 } }

/-- BINFO of an escalated cause: the original XINFO[31:0] and code, and the reason bits (R304, R311). -/
def escInfo (q : Cause) (bits : BitVec 64) : BitVec 64 :=
  ((q.xinfo &&& 0xFFFFFFFF) <<< 32) ||| (q.code.setWidth 64 <<< 8) ||| bits

/-- R313-R317: native entry in cycle A. -/
def enterNative (c : CoreId) (a : Nat) (q : Cause) (s : State) : State :=
  let s := s.modCore c (entryCore a)
  let k := s.core c
  let r := branchRecord k.seq.branch q.back
  let pcw : TWord := { k.x.pcc with val := setAddr k.x.pcc.val q.xpc }
  let st := savedStatus k.x.status r
  let s := writeFrame c a (capAddr k.x.xframe.val).toNat pcw st q.code q.xinfo q.xaddr r s
  s.modCore c fun k =>
    { k with
      x := { k.x with xpc := pcw, xstat := st, cause := q.code, xaddr := q.xaddr, xinfo := q.xinfo,
                      status := entryStatus k.x.status, pcc := unsealed k.x.ivec, xframe := frameAdvance k.x.xframe },
      seq := clearFlow a k.seq }

/-- The base cause of ESCALATED (R304). -/
def codeEscalated : BitVec 8 := 0x40
/-- The base cause of LEGACY_TRAP (R304). -/
def codeLegacyTrap : BitVec 8 := 0x46

/-- The base cause of MACHINE_CHECK (R304), also as the code of a cause that an instruction meets in IS (R268). -/
def codeMachine : BitVec 8 := 0x41

/-- A MACHINE_CHECK that an instruction of core c meets in IS, cycle A: base entry with INFO and BADDR; the partner of a pair takes it too
(R268, R304). -/
def deliverMachine (c : CoreId) (a : Nat) (q : Cause) (s : State) : State :=
  let s := recordEcc q.xaddr.toNat s
  let p := if isOdd s c then evenCore (pairOf c) else oddCore (pairOf c)
  let s := if paired s c then machineCheck p a q.xinfo.toNat q.xaddr.toNat s else s
  enterBase c a codeMachine (q.xinfo <<< 32) q.xpc q.back q.xaddr s

/-- R300: a cause of the native classes is delivered in cycle A as the first matching row says; a MACHINE_CHECK is a base cause. FM is that of the STATUS in force
in the cycle of the fault, before the shadow that the entry cuts short ends (R81, R83; DEDUCED, log entry 73). -/
def deliver (c : CoreId) (a : Nat) (q : Cause) (s : State) : State :=
  let fm := stFM ((s.core c).modeStatus a)
  let s := s.modCore c (settleCore true a)
  let k := s.core c
  let badX := !xframeValid k.x.xframe
  let badI := !ivecValid k.x.ivec
  if q.code = codeMachine then deliverMachine c a q s
  else if k.atBase then enterBase c a codeEscalated (escInfo q 1) q.xpc q.back q.xaddr s
  else if q.fault && k.legacy && s.cfg.lgtrap.getLsbD c.val then enterBase c a codeLegacyTrap (escInfo q 0) q.xpc q.back q.xaddr s
  else if q.fault && fm then enterBase c a codeEscalated (escInfo q 2) q.xpc q.back q.xaddr s
  else if badX || badI then
    enterBase c a codeEscalated (escInfo q ((if badX then 8 else 0) ||| (if badI then 4 else 0))) q.xpc q.back q.xaddr s
  else enterNative c a q s

/-- The address of the instruction that the core would issue next. -/
def Core.pc (k : Core) : Addr := capAddr k.x.pcc.val

/-- The address that XPC names for the instruction at the boundary: the IMM or RPT prefix before it where it
has one (R98, R177, R180, R527). -/
def Core.resumePc (k : Core) : Addr := if k.seq.imm.isSome || k.seq.rpt.isSome then k.pc - 4 else k.pc

/-- Whether XPC names a word one slot before the instruction at the boundary. -/
def Core.back (k : Core) : Bool := k.seq.imm.isSome

/-! ## Return from an exception (R319-R321) -/

/-- R319, R297: the rank of a saved status. -/
def savedRank (st : BitVec 32) : Nat :=
  if st.getLsbD 9 then 3 else if !stLG st then 2 else if stLSV st then 1 else 0

/-- R319: what XRET refuses, as the code of the cause, XINFO and XADDR; none where every check passes. -/
def xretRefusal (k : Core) : Option (BitVec 8 × BitVec 64 × Addr) :=
  let base := decide (1 ≤ k.x.depth)
  let p := if base then k.x.bpc else k.x.xpc
  let st := if base then k.x.bstat else k.x.xstat
  let a := (capAddr p.val).toNat
  let i : BitVec 64 := 32
  if !p.tag || decide (capOtype p.val ≠ 0) || !hasPerm p.val permEX then some (0x0A, 1, 0)
  else if savedRank st > k.level.rank then some (0x0A, 2, 0)
  else if decide (stKEY st = 0) && decide (stKEY k.x.status ≠ 0) then some (0x0A, 3, 0)
  else if !base && st.getLsbD 8 && !xframeValid k.x.xframe then some (0x0A, 4, 0)
  else if a % 4 ≠ 0 then some (0x03, 0, capAddr p.val)
  else if !inBounds p.val a 4 then some (0x05, i, capAddr p.val)
  else if !within a 4 lisLocal lisSize then some (0x09, i, capAddr p.val)
  else none

/-- The STATUS that XRET installs from a saved status (R310, R320). -/
def restoredStatus (st : BitVec 32) : BitVec 32 := st &&& 0xFFEF003F

/-- The branch that XRET installs again (R321). -/
def recordedBranch (st : BitVec 32) (target invoked : TWord) (seq : Nat) : Option Branch :=
  if st.getLsbD 8 then
    some { left := if st.getLsbD 7 then 1 else 2, taken := true, target := target,
           invoked := if st.getLsbD 6 then some (unsealed invoked) else none, seq := seq }
  else none

/-- The words of a frame that XRET reads in t + 1 give the branch that it installs again (R320, R321). -/
def readRecord (c : CoreId) (fr : Nat) (st : BitVec 32) (seq : Nat) (s : State) : State :=
  let br := recordedBranch st (loadCap s (fr + 48)) (loadCap s (fr + 64)) seq
  s.modSeq c fun q => { q with branch := br }

/-- BPC, BSTAT, BCAUSE and BINFO reloaded from a base frame; the registers take their writable bits (R15, R310, R311, R320). -/
def reloadBase (c : CoreId) (fr : Nat) (s : State) : State :=
  let p := loadCap s fr
  let m := loadCap s (fr + 16)
  s.modX c fun x =>
    { x with bpc := p, bstat := m.val.setWidth 32 &&& 0xFFFF03FF, bcause := m.val.extractLsb' 32 8,
             binfo := m.val.extractLsb' 64 64 &&& 0xFFFFFFFF0000FF0F }

/-- R320: XRET that issues at t restores PCC and STATUS, from what it reads in IS, and the branch record; the resume point
issues at t + 8. BPC and the registers beside it are reloaded in t + 2 (log entry 96). -/
def doXret (c : CoreId) (t : Nat) (s : State) : State :=
  let k := s.core c
  let base := decide (1 ≤ k.x.depth)
  let p := if base then k.x.bpc else k.x.xpc
  let st := if base then k.x.bstat else k.x.xstat
  let xf := if !base && xframeValid k.x.xframe then frameRetreat k.x.xframe else k.x.xframe
  let fr := ldsBase c + (if base then framesOff + 0x100 * (k.x.depth - 1) else (capAddr xf.val).toNat)
  let s := s.modCore c (retire (t + 3))
  let s := if 2 ≤ k.x.depth then schedule c (t + 2) 0 (.reload (ldsBase c + framesOff + 0x100 * (k.x.depth - 2))) s else s
  let s := if st.getLsbD 8 then schedule c (t + 1) 0 (.record fr st k.seq.wseq) s else s
  s.modCore c fun k =>
    { k with x := { k.x with pcc := p, status := restoredStatus st, depth := k.x.depth - 1, xframe := xf },
             seq := { k.seq with branch := none, nextIssue := t + 8, deAt := t + 7, noAccept := st.getLsbD 8 } }

/-! ## Reading system registers (R123, R124) -/

/-- The TAI counter a number of ticks after that of the current cycle: edges of TSCLK since it was last set, 100 ns each (R477; log
entry 1). It stands still while TSCLK is lost. -/
def taiAhead (ticks : Nat) (s : State) : BitVec 48 × BitVec 32 :=
  let edges := if s.pw.tsok then (s.now - s.pw.taiCycle) / (if s.lean then 100 else 200) + ticks else 0
  let ns := s.pw.taiNs.toNat + 100 * edges
  (s.pw.taiSec + BitVec.ofNat 48 (ns / 1000000000), BitVec.ofNat 32 (ns % 1000000000))

/-- The TAI counter as of a cycle (R477). -/
def taiNow (s : State) : BitVec 48 × BitVec 32 := taiAhead 0 s

/-- A TAI reading, as SR 0x0E and the journal hold it: of either of two adjacent ticks (R8, R124, R404; log entry 1). -/
def taiRead (s : State) : BitVec 96 × State :=
  let (sec, ns) := taiAhead (if Config.lateCrossing s.free then 1 else 0) s
  ((sec.setWidth 96 <<< 32) ||| ns.setWidth 96, { s with free := s.free + 1 })

/-- LKSTAT as core c reads it (R311). -/
def lkstat (s : State) (c : CoreId) : BitVec 64 :=
  BitVec.ofNat 64 ((s.core c).x.depth * 2 ^ 52 +
    (allCores.map fun j => if (s.core j).x.locked then 2 ^ j.val else 0).sum)

/-- BUSY as an instruction of cycle t reads it; on the odd core of a pair it falls 2 cc later (R465). -/
def busyAt (d : DataPort) (t : Nat) : Bool := d.busy || decide (t + 1 < d.fall)

/-- DPCTL as it reads in cycle t (R461). -/
def dpctlRead (d : DataPort) (t : Nat) : Word :=
  BitVec.ofNat 128 (d.cnt.toNat * 2 ^ 32 + (if busyAt d t then 2 ^ 30 else 0) + d.err.toNat * 2 ^ 28 +
    d.burst.toNat * 2 ^ 8 + d.inc.toNat * 2 ^ 4 + (if d.dir then 1 else 0))

/-- A system register read by MFS on core c in its IS cycle; DPDATA has an effect of its own (R464). A key handle
is suppressed in lean mode (R295). -/
def sysRead (s : State) (c : CoreId) (sr : BitVec 6) : TWord :=
  let k := s.core c
  let plain (n : Nat) : TWord := TWord.plain (BitVec.ofNat 128 n)
  let cap (v : TWord) : TWord := if s.lean && isHandle v then { v with tag := false } else v
  match sr.toNat with
  | 0x00 => plain k.x.status.toNat
  | 0x01 => plain k.x.cause.toNat
  | 0x02 => cap k.x.xpc
  | 0x03 => plain k.x.xstat.toNat
  | 0x04 => plain k.x.xaddr.toNat
  | 0x05 => plain k.x.xinfo.toNat
  | 0x06 => cap k.x.xframe
  | 0x07 => cap k.x.ivec
  | 0x08 => cap k.x.bpc
  | 0x09 => plain k.x.bstat.toNat
  | 0x0A => plain k.x.bcause.toNat
  | 0x0B => plain k.x.binfo.toNat
  | 0x0C => plain (s.now % 2 ^ 64)
  | 0x0D => plain c.val
  | 0x0E => plain (taiRead s).1.toNat
  | 0x0F => plain (lkstat s c).toNat
  | 0x10 => plain k.regs.vl.toNat
  | 0x11 => plain k.regs.fpctl.toNat
  | 0x12 => plain k.regs.fpflags.toNat
  | 0x13 => plain k.regs.dctl.toNat
  | 0x14 => cap k.dp.addr
  | 0x15 => TWord.plain (dpctlRead k.dp s.now)
  | 0x17 => plain k.dp.stall.toNat
  | _ => TWord.null

/-- The system registers of R124. -/
def sysListed (sr : BitVec 6) : Bool := decide (sr.toNat ≤ 0x17)
/-- The BL system registers of R124. -/
def sysBL (sr : BitVec 6) : Bool := [0x08, 0x09, 0x0A, 0x0B, 0x0F].contains sr.toNat

end Sys2Proof.Machine
end

