-- ==== Sys2Proof/Machine/Attached.lean ====
section
/-! DEFINITION. Attached memory as its requesters meet it: the reports of the HBM3E stacks (R466, R467), the checks of an access with its key
and tag tables (R249, R468), and the requests of the data ports (R291, R460, R463, R464). -/
namespace Sys2Proof.Machine

/-! ## The stacks (R466, R467) -/

/-- The stack that serves an attached address (R466). -/
def stackOf (a : Nat) : StackId := ⟨(a - attBase) / 256 % 4, Nat.mod_lt _ (by omega)⟩

/-- A stack's status changed. -/
def modStack (k : StackId) (f : Stack → Stack) (s : State) : State :=
  { s with mov := { s.mov with hbmStacks := s.mov.hbmStacks.set k (f s.mov.hbmStacks[k]) } }

/-- R467: an uncorrectable error of an attached unit: recorded, and event 353 + 8s. -/
def stackError (a : Nat) (s : State) : State :=
  let k := stackOf a
  let s := modStack k (fun x => if x.uev then x else { x with uev := true, ueaddr := BitVec.ofNat 48 (a - attBase) }) s
  pulse (353 + 8 * k.val) s

/-- R467: a corrected error of a stack: counted, and event 352 + 8s at each multiple of the threshold. -/
def stackCorrected (k : StackId) (s : State) : State :=
  let s := modStack k (fun x => { x with cecnt := satAdd x.cecnt 1 }) s
  let th := max 1 s.mov.hbmCeth.toNat
  if s.mov.hbmStacks[k].cecnt.toNat % th = 0 then pulse (352 + 8 * k.val) s else s

/-- CECNT counts a corrected error (R266, R270). -/
def countCorrected (s : State) : State := { s with slath := { s.slath with cecnt := satAdd s.slath.cecnt 1 } }

/-- Single-bit errors that a read of n bytes from a on meets: corrected in the data delivered, and counted (R266, R467). -/
def softRead (a n : Nat) (s : State) : State :=
  (s.eccSoft.filter fun w => overlaps a n w (eccSize w)).foldl
    (fun s w => if attBase ≤ w then stackCorrected (stackOf w) s else countCorrected s) s

/-- Single-bit errors of the key bytes that a check of n bytes from a on reads in a copy (R265, R266). -/
def softKeys (copy : Nat) (key : BitVec 4) (a n : Nat) (s : State) : State :=
  if key = 0 ∨ s.keySoft.isEmpty then s
  else ((globalFrames a n).filter fun x => s.keySoft.contains (copy, x.1)).foldl (fun s _ => countCorrected s) s

/-! ## Upsets (R262, R265) -/

/-- A word, a key byte or a slot of the key store changes by itself: a second bit in a word that holds a single-bit error makes it
uncorrectable (R265, R266; log entry 5). -/
def upset (u : Upset) (s : State) : State :=
  let ins (x : Nat × Nat) (l : List (Nat × Nat)) : List (Nat × Nat) := if l.contains x then l else x :: l
  let key (x : Nat × Nat) : State :=
    if u.double || s.keyBad.contains x || s.keySoft.contains x then
      { s with keyBad := ins x s.keyBad, keySoft := s.keySoft.filter fun y => y ≠ x }
    else { s with keySoft := ins x s.keySoft }
  match u.at_ with
  | .word a =>
    let w := eccWord a.toNat
    if u.double || s.eccBad.contains w || s.eccSoft.contains w then
      { s with eccBad := insertNat w s.eccBad, eccSoft := s.eccSoft.filter fun y => y ≠ w }
    else { s with eccSoft := insertNat w s.eccSoft }
  | .tileKey c f => key (c.val, f.toNat)
  | .masterKey f => key (48, f.toNat)
  | .keySlot n =>
    let k := s.ks
    { s with ks :=
      if u.double || k.badSlots.contains n.toNat || k.softSlots.contains n.toNat then
        { k with badSlots := insertNat n.toNat k.badSlots, softSlots := k.softSlots.filter fun y => y ≠ n.toNat }
      else { k with softSlots := insertNat n.toNat k.softSlots } }

/-- The first word with an uncorrectable error that a write of n bytes from a on touches without covering it (R467). -/
def eccPart (s : State) (a n : Nat) : Option Nat :=
  s.eccBad.find? fun w => overlaps a n w (eccSize w) && !(decide (a ≤ w) && decide (w + eccSize w ≤ a + n))

/-- The first unit of n bytes of attached memory, tables included, that lies in a stack whose PHY has failed (R468). -/
def failedUnit (s : State) (a n : Nat) : Option Nat :=
  if n = 0 then none
  else
    let chunks := (List.range ((a + n - 1) / 256 - a / 256 + 1)).map fun i => max a (a / 256 * 256 + 256 * i)
    (chunks.find? fun x => s.mov.hbmStacks[stackOf x].phyFailed).map eccWord

/-- The first unit of n bytes of a table that an access finds uncorrectable (R249, R467, R468). -/
def tableBad (s : State) (a n : Nat) : Option Nat :=
  match failedUnit s a n with
  | some x => some x
  | none => eccHit s a n

/-- The first unit of the key table that an access to n attached bytes from a on finds uncorrectable (R249, R467, R468). -/
def keyTableBad (s : State) (a n : Nat) : Option Nat :=
  let at_ (x : Nat) : Nat := keyTable + (x - attBase) / 65536
  tableBad s (at_ a) (at_ (a + n - 1) - at_ a + 1)

/-- The first unit of n attached bytes from a on, or of their tags, that an access finds uncorrectable: a marked unit, or one of a stack
whose PHY failed (R467, R468). A write meets a data unit only where it writes part of it. -/
def attachedBad (s : State) (store : Bool) (a n : Nat) : Option Nat :=
  if n = 0 then none
  else
    match failedUnit s a n with
    | some x => some x
    | none =>
      match (if store then eccPart s a n else eccHit s a n) with
      | some x => some x
      | none => tableBad s (attTagByte a) (attTagByte (a + n - 1) - attTagByte a + 1)

/-- What an access to n attached bytes meets: a unit in error, of the key table first (R249, R467), or the first byte that the key rule
refuses (R285), as the ERR of R461. -/
def attachedCheck (s : State) (key : BitVec 4) (store : Bool) (a n : Nat) : Option (BitVec 2 × Nat) :=
  match (if n = 0 then none else keyTableBad s a n) with
  | some w => some (2, w)
  | none =>
    match keyRefusal s key store a n with
    | some p => some (1, p)
    | none => (attachedBad s store a n).map fun w => (2, w)

/-- AC set by a read of n attached bytes that the key rule has let pass, whatever error its data met (R286, R467). -/
def attachedMark (s : State) (key : BitVec 4) (a n : Nat) : State :=
  if (keyTableBad s a n).isNone && (keyRefusal s key false a n).isNone then markFrames s a n false else s

/-! ## The data port's requests (R463, R464) -/

/-- The request performed in attached memory (R285, R286, R291, R463, R464). -/
def performBurst (r : DpReq) (s : State) : DpReply × State :=
  let a := r.addr.toNat
  let fail (e : BitVec 2) (p : Nat) (s : State) : DpReply × State :=
    ({ err := e, bad := BitVec.ofNat 52 p, data := none, keyr := false }, if e = 2 then stackError p s else s)
  let good (data : Option (List Byte)) (keyr : Bool) (s : State) : DpReply × State :=
    ({ err := 0, bad := 0, data := data, keyr := keyr }, s)
  match r.kind with
  | .read n =>
    match attachedCheck s r.key false a n with
    | some (e, p) => fail e p (attachedMark s r.key a n)
    | none => good (some (s.bytes a n)) false (markFrames (softRead a n s) a n false)
  | .write bs =>
    match attachedCheck s r.key true a bs.length with
    | some (e, p) => fail e p s
    | none => good none false (markFrames (storeBytes s a bs) a bs.length true)
  | .keyw b =>
    match keyTableBad s a 1 with
    | some w => fail 2 w s
    | none => good none false (setKeyByte s a b)
  | .keyr =>
    match keyTableBad s a 1 with
    | some w => fail 2 w s
    | none => good (some [keyByte s a]) true s

/-- The request of core c's data port crosses into the attached-memory domain and is performed there (R460, R462). -/
def crossBurst (c : CoreId) (s : State) : State :=
  match (s.core c).dp.req with
  | none => s
  | some r =>
    let (rep, s) := performBurst r s
    s.modDp c fun d => { d with reply := some rep }

/-- A request put into core c's data port; it crosses in the cycle after the completion cycle of its MTS (R56, R462). -/
def sendRequest (c : CoreId) (r : DpReq) (s : State) : State :=
  schedule c (r.go + 3) 0 .burst (s.modDp c fun d => { d with req := some r, reply := none })

end Sys2Proof.Machine
end

