-- ==== Sys2Proof/Machine/Flags.lean ====
section
/-! DEFINITION. The condition field (R96) and the integer results with their flags at width w: sums,
differences, logical results, shifts, rotates, counts, products, quotients and the division steps (R22, R93,
R99-R113). -/
namespace Sys2Proof.Machine

/-- R93: the width that W selects; 0b11 is ILLEGAL and decoded before. -/
def widthOf (w : Wf) : Nat :=
  match w.toNat with
  | 0 => 32
  | 1 => 64
  | _ => 128

/-- The w-bit value of a word (R22). -/
def lowBits (n : Nat) (v : Word) : Nat := v.toNat % 2 ^ n

/-- R22: an n-bit result, sign-filled to 128 bits. -/
def signFill (n v : Nat) : Word := BitVec.ofInt 128 (toSigned n v)

/-- R96: whether a condition holds under the flags. -/
def condHolds (cond : Cond) (st : BitVec 32) : Bool :=
  let n := st.getLsbD 0
  let z := st.getLsbD 1
  let c := st.getLsbD 2
  let v := st.getLsbD 3
  match cond.toNat with
  | 0 => z
  | 1 => !z
  | 2 => c
  | 3 => !c
  | 4 => n
  | 5 => !n
  | 6 => v
  | 7 => !v
  | 8 => c && !z
  | 9 => !c || z
  | 10 => n == v
  | 11 => n != v
  | 12 => !z && n == v
  | 13 => z || n != v
  | 14 => true
  | _ => st.getLsbD 4

/-- An integer result of n bits with the flags it writes. -/
structure IntOut where
  d : Nat
  mask : BitVec 6
  vals : BitVec 6
  deriving DecidableEq, Repr

/-- R100: the values of N and Z for an n-bit result. -/
def nz (n d : Nat) : BitVec 6 := flag fN (d.testBit (n - 1)) ||| flag fZ (d == 0)

/-- R99, R100: a + b + carry at n bits. -/
def addOut (n a b cin : Nat) : IntOut :=
  let d := (a + b + cin) % 2 ^ n
  { d := d, mask := 15,
    vals := nz n d ||| flag fC (decide (2 ^ n ≤ a + b + cin)) |||
            flag fV (decide (toSigned n a + toSigned n b + cin ≠ toSigned n d)) }

/-- R99, R100: a - b - borrow at n bits; C is 1 where no borrow is needed. -/
def subOut (n a b borrow : Nat) : IntOut :=
  let d := (a + 2 ^ n - b - borrow) % 2 ^ n
  { d := d, mask := 15,
    vals := nz n d ||| flag fC (decide (b + borrow ≤ a)) |||
            flag fV (decide (toSigned n a - toSigned n b - borrow ≠ toSigned n d)) }

/-- R99: a logical result writes N and Z. -/
def logicOut (n d : Nat) : IntOut := { d := d, mask := 3, vals := nz n d }

/-- The kinds of shift and rotate (R102). -/
inductive Shift where
  | sll | srl | sra | rol | ror
  deriving DecidableEq, Repr

/-- R102: a shift or rotate of an n-bit value by k. -/
def shiftOut (op : Shift) (n a k : Nat) : IntOut :=
  let signs := if a.testBit (n - 1) then 2 ^ n - 1 else 0
  match op with
  | .sll =>
    if k = 0 then logicOut n a
    else if k ≤ n then
      let d := a * 2 ^ k % 2 ^ n
      { d := d, mask := 7, vals := nz n d ||| flag fC (a.testBit (n - k)) }
    else { d := 0, mask := 7, vals := fZ }
  | .srl =>
    if k = 0 then logicOut n a
    else if k ≤ n then
      let d := a / 2 ^ k
      { d := d, mask := 7, vals := nz n d ||| flag fC (a.testBit (k - 1)) }
    else { d := 0, mask := 7, vals := fZ }
  | .sra =>
    if k = 0 then logicOut n a
    else if k ≤ n then
      let d := wrapTo n (toSigned n a / (2 ^ k : Int))
      { d := d, mask := 7, vals := nz n d ||| flag fC (a.testBit (k - 1)) }
    else { d := signs, mask := 7, vals := nz n signs ||| flag fC (a.testBit (n - 1)) }
  | .rol =>
    let j := k % n
    logicOut n ((a * 2 ^ j % 2 ^ n) + a / 2 ^ (n - j))
  | .ror =>
    let j := k % n
    logicOut n (a / 2 ^ j + a * 2 ^ (n - j) % 2 ^ n)

/-- The number of leading zero bits of an n-bit value (R99). -/
def leadingZeros (n a : Nat) : Nat := if a = 0 then n else n - 1 - Nat.log2 a

/-- The number of set bits of an n-bit value (R99). -/
def popCount (n a : Nat) : Nat := ((List.range n).filter fun i => a.testBit i).length

/-- R99: CLZ and POPC write N as 0 and Z. -/
def countOut (d : Nat) : IntOut := { d := d, mask := 3, vals := flag fZ (d == 0) }

/-- R105: the low n bits of a product, with V where it does not fit. -/
def mulOut (n : Nat) (sgn : Bool) (a b : Nat) : IntOut :=
  if sgn then
    let p := toSigned n a * toSigned n b
    let d := wrapTo n p
    { d := d, mask := 11, vals := nz n d ||| flag fV (decide (toSigned n d ≠ p)) }
  else
    let d := a * b % 2 ^ n
    { d := d, mask := 11, vals := nz n d ||| flag fV (decide (2 ^ n ≤ a * b)) }

/-- R105: bits [255:128] of a product of 128-bit values; V is written 0. -/
def mulHighOut (sgn : Bool) (a b : Nat) : IntOut :=
  let d := if sgn then wrapTo 256 (toSigned 128 a * toSigned 128 b) / 2 ^ 128 else a * b / 2 ^ 128
  { d := d, mask := 11, vals := nz 128 d }

/-- R58: the significant bits of the multiplier. -/
def sigBits (n : Nat) (sgn : Bool) (b : Nat) : Nat :=
  let m := if sgn then (toSigned n b).natAbs else b
  if m = 0 then 0 else Nat.log2 m + 1

/-- R104, R105: quotient and remainder, truncated toward zero; by 0, quotient 0 and remainder the dividend. -/
def divOut (n : Nat) (sgn rem : Bool) (a b : Nat) : IntOut :=
  let v := decide (b = 0) || (sgn && decide (a = 2 ^ (n - 1)) && decide (b = 2 ^ n - 1))
  let d :=
    if b = 0 then (if rem then a else 0)
    else if sgn then
      wrapTo n (if rem then Int.tmod (toSigned n a) (toSigned n b) else Int.tdiv (toSigned n a) (toSigned n b))
    else if rem then a % b else a / b
  { d := d, mask := fV, vals := flag fV v }

/-- The magnitude of an n-bit value (R112). -/
def magnitude (n a : Nat) : Nat := (toSigned n a).natAbs

/-- R112: one trial of DSTEP on the pair (rem, quo). -/
def divTrial (n dv : Nat) (p : Nat × Nat) : Nat × Nat :=
  let t := 2 * p.1 + (if p.2.testBit (n - 1) then 1 else 0)
  let quo := p.2 * 2 % 2 ^ n
  if dv ≤ t then ((t - dv) % 2 ^ n, quo + 1) else (t % 2 ^ n, quo)

/-- R112: DSTEPF. -/
def divFinish (n : Nat) (st : BitVec 32) (p : Nat × Nat) : Nat × Nat :=
  let neg (x : Nat) : Nat := (2 ^ n - x) % 2 ^ n
  let quo := if st.getLsbD 1 then 0 else p.2
  let quo := if st.getLsbD 2 then neg quo else quo
  (if st.getLsbD 0 then neg p.1 else p.1, quo)

end Sys2Proof.Machine
end

