-- ==== Sys2Proof/Machine/Operands.lean ====
section
/-! DEFINITION. The operand forms: immediates and offsets with their extension (R97), the authority of a data
access at each level (R115, R292, R299), the access check (R284, R526), and the checks of branch targets (R119). -/
namespace Sys2Proof.Machine

/-! ## Immediates and offsets (R97) -/

/-- R97: IMM10, extended by a prefix where one is waiting, sign-extended to 128 bits. -/
def immWord (k : Core) (imm : BitVec 10) : Word :=
  match k.seq.imm with
  | some v => BitVec.signExtend 128 (v ++ imm)
  | none => BitVec.signExtend 128 imm

/-- R97: OFF12, extended by a prefix where one is waiting, modulo 2^52. -/
def offAddr (k : Core) (off : BitVec 12) : Addr :=
  match k.seq.imm with
  | some v => BitVec.signExtend 52 (v ++ off)
  | none => BitVec.signExtend 52 off

/-! ## Register pairs (R111, R129) -/

/-- The second register of a pair. -/
def pairReg (gd : Reg) : Reg := ⟨(gd.val + 1) % 32, Nat.mod_lt _ (by omega)⟩

/-- R111: gd names a pair: even and not g0. -/
def pairOk (gd : Reg) : Bool := gd.val % 2 == 0 && gd != 0

/-! ## Causes of an instruction -/

/-- A precise cause of an instruction: its code, XADDR and XINFO (R303). -/
structure Trap where
  code : BitVec 8
  xaddr : Addr
  xinfo : BitVec 64
  deriving DecidableEq, Repr

/-- CAP_TAG (R303). -/
def cTag : BitVec 8 := 0x04
/-- CAP_BOUNDS (R303). -/
def cBounds : BitVec 8 := 0x05
/-- CAP_PERM (R303). -/
def cPerm : BitVec 8 := 0x06
/-- CAP_SEAL (R303). -/
def cSeal : BitVec 8 := 0x07
/-- ALIGN (R303). -/
def cAlign : BitVec 8 := 0x03
/-- KEY_MISMATCH (R303). -/
def cKey : BitVec 8 := 0x08
/-- LIS_FETCH (R303). -/
def cFetch : BitVec 8 := 0x09

/-- A CAP cause with its address and the number of the failing capability (R303). -/
def capTrap (code : BitVec 8) (addr reg : Nat) : Trap :=
  { code := code, xaddr := BitVec.ofNat 52 addr, xinfo := BitVec.ofNat 64 reg }

/-- XINFO of a failure of the PCC (R303). -/
def pccReg : Nat := 32

/-- A permission of the PCC that an instruction requires (R122, R319, R343). -/
def needPcc (k : Core) (p : Nat) : Option Trap :=
  if hasPerm k.x.pcc.val p then none else some (capTrap cPerm 0 pccReg)

/-- The first cause of a list of checks. -/
def firstTrap : List (Option Trap) → Option Trap
  | [] => none
  | some q :: _ => some q
  | none :: r => firstTrap r

/-! ## Authority of a data access -/

/-- What authorises an access and where it goes: the capability, the effective address, and the number that
XINFO names. -/
structure Auth where
  cap : TWord
  ea : Nat
  reg : Nat
  deriving DecidableEq, Repr

/-- R292, R293: the default capability of the legacy level of core c, under STATUS.KEY. -/
def legacyCap (s : State) (c : CoreId) : TWord :=
  let k := s.core c
  let d := if stLSV k.x.status then s.cfg.lgcaps[c] else s.cfg.lgcapt[c]
  { d with val := setKey d.val (stKEY k.x.status) }

/-- A capability operand as an access authority: at legacy level the address in bits [51:0] under the default
capability, elsewhere the register itself (R115, R292, R294). At legacy level g0 gives address 0 under the default capability, as R292 has it,
where R299 lets g0 fail at every level but base (DEDUCED, log entry 111). -/
def authAt (s : State) (c : CoreId) (r : Reg) (off : Addr) : Auth :=
  let k := s.core c
  let v := k.reg r
  let ea := (capAddr v.val + off).toNat
  if k.legacy then { cap := legacyCap s c, ea := ea, reg := 33 } else { cap := v, ea := ea, reg := r.val }

/-- R115, R292, R299: the authority of a scalar or decimal memory form; at base level g0 stands for the root
capability with ea := off. -/
def authOf (s : State) (c : CoreId) (r : Reg) (off : Addr) : Auth :=
  if (s.core c).atBase && r == 0 then { cap := rootCap, ea := off.toNat, reg := 0 } else authAt s c r off

/-! ## BL registers of control space (R14, R526) -/

/-- Whether the byte at an offset of control space belongs to a BL register (R14; log entry 16). -/
def blByte (o : Nat) : Bool :=
  let in_ (lo n : Nat) : Bool := decide (lo ≤ o) && decide (o < lo + n)
  in_ 0x0 8 || in_ 0x1000 0x600 || in_ 0x2000 0x180 || in_ 0x100000 0x2000 || in_ 0x201000 8 || in_ 0x201018 8 ||
  in_ 0x300000 8 || (in_ 0x400000 0x800 && o % 0x20 < 8) || in_ 0x401000 8 ||
  (in_ 0x500000 0x4000 && decide (0x28 ≤ o % 0x100) && decide (o % 0x100 < 0x30)) || in_ 0x504000 0x4000 ||
  in_ 0x581000 0x1000 || in_ 0x582008 8 || in_ 0x5A0000 8 || in_ 0x600028 8 || in_ 0x600038 8 || in_ 0x600040 1 ||
  in_ 0x600058 8 || in_ 0x600060 1 || in_ 0x600068 8 || in_ 0x600080 16 || in_ 0x600100 8 || in_ 0x600300 0x18 ||
  in_ 0x600400 0x18 || in_ 0x600500 0x20 || in_ 0x600600 0x48 || in_ 0x600680 0x48

/-- Whether n bytes from ea on touch a BL register (R526). -/
def touchesBL (ea n : Nat) : Bool :=
  overlaps ea n ctlBase ctlSize &&
    (List.range n).any fun i => decide (ctlBase ≤ ea + i) && decide (ea + i < ctlBase + ctlSize) && blByte (ea + i - ctlBase)

/-! ## The access check (R284) -/

/-- What a data access does. -/
inductive AccKind where
  | load | store | loadCap | storeCap (gs : Reg) (v : TWord)
  deriving DecidableEq, Repr

/-- Whether an access writes. -/
def AccKind.isStore : AccKind → Bool
  | .store => true
  | .storeCap _ _ => true
  | _ => false

/-- Whether an access is of the capability forms. -/
def AccKind.isCap : AccKind → Bool
  | .loadCap => true
  | .storeCap _ _ => true
  | _ => false

/-- Whether n bytes from ea on touch a per-core absolute window (R244). -/
def touchesWindow (ea n : Nat) : Bool := overlaps ea n 0x100000000 0x3000000

/-- Check 3 of R284: the permissions, and base level for windows and BL registers. -/
def permFault (base : Bool) (a : Auth) (n : Nat) (kind : AccKind) : Option Trap :=
  let w := a.cap.val
  let no := some (capTrap cPerm a.ea a.reg)
  if !hasPerm w (if kind.isStore then permST else permLD) then no
  else
    match kind with
    | .loadCap => if hasPerm w permLDC then permRest w no else no
    | .storeCap gs v =>
      if !hasPerm w permSTC then no
      else if v.tag && !hasPerm v.val permGLOBAL && !within a.ea n 0 ldsSize then
        some (capTrap cPerm a.ea gs.val)
      else permRest w no
    | _ => permRest w no
where
  /-- Base level for windows and BL registers; SYSREG for a store to the loader's registers (R371). -/
  permRest (w : Word) (no : Option Trap) : Option Trap :=
    if !base && (touchesWindow a.ea n || touchesBL a.ea n) then no
    else if kind.isStore && overlaps a.ea n (ctlBase + 0x3000) 0x58 && !hasPerm w permSYSREG then no
    else none

/-- Whether n bytes from ea on lie in one region, and in a window below its reserved part; of an absent core's window nothing is reserved
more (R2, R242, R244). -/
def regionPasses (s : State) (c : CoreId) (ea n : Nat) : Bool :=
  match regionOf c ea n with
  | some (.window j off) => decide (off + n ≤ 0xA4000) || decide (coreCount s.grade ≤ j)
  | some _ => true
  | none => false

/-- Check 5 of R284: bounds, the region rules of R242, and the base-level frames of R243. -/
def boundsFault (s : State) (c : CoreId) (base : Bool) (a : Auth) (n : Nat) : Option Trap :=
  if inBounds a.cap.val a.ea n && regionPasses s c a.ea n && (base || !overlaps a.ea n framesOff 0x800) then none
  else some (capTrap cBounds a.ea a.reg)

/-- A MACHINE_CHECK that an instruction meets in IS: an uncorrectable error of a key byte in the tile's copy, by the first byte that it
guards (R268, R304; log entry 104). -/
def keyCheck (p : Nat) : Trap := { code := codeMachine, xaddr := BitVec.ofNat 52 p, xinfo := 4 }

/-- Check 6 of R284: the key rule on every global frame that the access touches, by the copy of core c's tile (R246, R251, R268, R285). -/
def keyFault (s : State) (c : CoreId) (a : Auth) (n : Nat) (store : Bool) : Option Trap :=
  if inGlobal a.ea n then
    match keyByteBad s c.val (capKey a.cap.val) a.ea n, keyRefusal s (capKey a.cap.val) store a.ea n with
    | some p, _ => some (keyCheck p)
    | none, some p => some (capTrap cKey p a.reg)
    | none, none => none
  else none

/-- Checks 1 and 2 of R284. -/
def tagSealFault (a : Auth) : Option Trap :=
  if !a.cap.tag then some (capTrap cTag a.ea a.reg)
  else if isSealed a.cap then some (capTrap cSeal a.ea a.reg)
  else none

/-- R284: the checks of a scalar data access, in order. -/
def accessFault (s : State) (c : CoreId) (a : Auth) (n : Nat) (kind : AccKind) : Option Trap :=
  let base := (s.core c).atBase
  firstTrap [tagSealFault a, permFault base a n kind,
    if kind.isCap && a.ea % 16 ≠ 0 then some { code := cAlign, xaddr := BitVec.ofNat 52 a.ea, xinfo := 0 } else none,
    boundsFault s c base a n, keyFault s c a n kind.isStore]

/-! ## Branch targets (R119) -/

/-- Checks 4 to 6 of R119 on a target under a new PCC that register `reg` names. -/
def targetFault (p : Word) (a : Nat) (reg : Nat) : Option Trap :=
  if a % 4 ≠ 0 then some { code := cAlign, xaddr := BitVec.ofNat 52 a, xinfo := 0 }
  else if !inBounds p a 4 then some (capTrap cBounds a reg)
  else if !within a 4 lisLocal lisSize then some (capTrap cFetch a reg)
  else none

/-- The return capability of a branch with link: the PCC at the branch address plus 12 (R68, R120). -/
def linkCap (k : Core) : TWord := { val := setAddr k.x.pcc.val (k.pc + 12), tag := true }

end Sys2Proof.Machine
end

