-- ==== Sys2Proof/Machine/Boundary.lean ====
section
/-! DEFINITION. The boundary between two instructions of a core: the words of instructions (R92), what issue asks of an instruction, the
exceptions that are due at a boundary (R302, R305, R306, R324), the checks of DE (R69, R94, R98, R110, R177, R179), and what an issue leaves
behind: slots, delay slots, the mode shadow, prefixes and repeats (R66, R81, R97, R178). -/
namespace Sys2Proof.Machine

/-! ## Instruction words (R92) -/

/-- A register field. -/
def rf (r : Reg) : BitVec 5 := BitVec.ofNat 5 r.val
/-- A word of register format (R92). -/
def regWord (cond : Cond) (op : BitVec 6) (gd ga gb : Reg) (w : Wf) (fn : BitVec 5) : BitVec 32 :=
  cond ++ op ++ rf gd ++ rf ga ++ rf gb ++ w ++ fn
/-- A word of immediate format (R92). -/
def immFmt (cond : Cond) (op : BitVec 6) (gd ga : Reg) (w : Wf) (imm : BitVec 10) : BitVec 32 :=
  cond ++ op ++ rf gd ++ rf ga ++ w ++ imm
/-- A word of shift immediate format (R92). -/
def shiftFmt (cond : Cond) (gd ga : Reg) (w : Wf) (kind : BitVec 3) (amt : BitVec 7) : BitVec 32 :=
  cond ++ (0x07 : BitVec 6) ++ rf gd ++ rf ga ++ w ++ kind ++ amt
/-- A word of memory format (R92). -/
def memFmt (cond : Cond) (op : BitVec 6) (g gb : Reg) (off : BitVec 12) : BitVec 32 :=
  cond ++ op ++ rf g ++ rf gb ++ off
/-- A word of system format (R92). -/
def sysFmt (cond : Cond) (g : Reg) (sr : BitVec 6) (fn : BitVec 5) : BitVec 32 :=
  cond ++ (0x22 : BitVec 6) ++ rf g ++ sr ++ (0 : BitVec 6) ++ fn
/-- A word with its bits [21:0] given whole. -/
def rawFmt (cond : Cond) (op : BitVec 6) (low : BitVec 22) : BitVec 32 := cond ++ op ++ low

/-! ## What issue asks of an instruction -/

/-- Whether an IMM prefix extends an instruction (R97). -/
inductive Ext where
  | none | imm | mem
  deriving DecidableEq, Repr

/-- What DE and issue need to know of an instruction: its word (XINFO of ILLEGAL), its condition, whether its own
fields and the mode are legal (R94, R110), whether a prefix extends it, whether R69 bans it from slot groups, whether
RPT may repeat it (R177) and which registers it writes then (R179), and whether it is a branch (R66). -/
structure Form where
  word : BitVec 32
  cond : Cond
  legal : Bool := true
  ext : Ext := .none
  banned : Bool := false
  rptOk : Bool := false
  writes : List Reg := []
  branch : Bool := false

/-! ## The boundary -/

/-- The cycle in which the next instruction of core c could begin IS. -/
def issueTime (s : State) (c : CoreId) : Nat := max s.now (s.core c).seq.nextIssue

/-- Whether a load is that of a decimal memory form, through which issue is held (R144). -/
def GLoad.holdsIssue (g : GLoad) : Bool :=
  match g.dest with
  | .dec _ => true
  | _ => false

/-- Whether core c is at a boundary or comes to one: it runs, and no XOP or decimal memory form of it is under way, nor an MVBL
but at an interruption point. -/
def canIssue (s : State) (c : CoreId) : Bool :=
  runs s c && (s.core c).seq.micro.isNone && ((s.core c).ms.mvbl.isNone || (s.core c).seq.str == some .block) && !(s.core c).ms.gloads.any GLoad.holdsIssue

/-- Whether the next instruction lies in a slot group (R69). -/
def inGroup (q : Seq) : Bool :=
  q.branch.isSome || (match q.shadow with | some sh => sh.left != 0 | none => false)

/-- Whether it lies in the last slot of its group (R69). -/
def lastOfGroup (q : Seq) : Bool :=
  (match q.branch with | some b => b.left == 1 | none => false) ||
  (match q.shadow with | some sh => sh.left == 1 | none => false)

/-- Whether a boundary is an acceptance point (R70, R83, R180, R321, R324). -/
def accepts (q : Seq) : Bool :=
  q.branch.isNone && q.shadow.isNone && q.imm.isNone && !q.noAccept &&
  (match q.rpt with | some r => !r.fresh | none => true)

/-! ## Events at a boundary (R302, R339) -/

/-- The pending events of core c that are not in service. -/
def waitingEvents (s : State) (c : CoreId) : BitVec 512 :=
  let k := s.core (evCore s c)
  k.evP &&& ~~~k.evS

/-- The event that the even core accepted and that is due on the odd core in cycle t (R90). -/
def mirrored (s : State) (c : CoreId) (t : Nat) : Option EventId :=
  match (s.pair (pairOf c)).eventQ with
  | (x, n) :: _ => if x + 2 ≤ t then some n else none
  | [] => none

/-- Whether an event of a base cause is due on core c (R302). -/
def baseEventDue (s : State) (c : CoreId) (t : Nat) (n : EventId) : Bool :=
  if isOdd s c then mirrored s c t == some n else (waitingEvents s c).getLsbD n.val

/-- R305 item 8: of a set of native events, the highest priority above a bound, and of those the lowest number. -/
def chooseEvent (s : State) (bits : BitVec 512) (above : Nat) : Option EventId :=
  if bits = 0 then none
  else
    (setBits bits).foldl (fun best i =>
      let n := evNo i
      let p := evPrio s n
      if isBaseEvent n || p ≤ above then best
      else match best with
        | some m => if evPrio s m < p then some n else best
        | none => some n) none

/-- The native event that core c would accept in cycle t (R302, R339). -/
def nativeEventDue (s : State) (c : CoreId) (t : Nat) : Option EventId :=
  let k := s.core c
  if k.atBase then none
  else if isOdd s c then
    match mirrored s c t with
    | some n => if isBaseEvent n then none else some n
    | none => none
  else chooseEvent s (waitingEvents s c) (stIPL k.x.status)

/-- What EVNEXT gives: PRIO and number of the event that item 8 of R305 would choose, or 0x200 (R343). -/
def evnextWord (s : State) (c : CoreId) : Word :=
  match chooseEvent s (waitingEvents s c) 0 with
  | some n => BitVec.ofNat 128 (evPrio s n * 65536 + n.val)
  | none => 0x200

/-- An EVNEXT of core c into a register that reads as of cycle a. -/
def markEvnext (c : CoreId) (a : Nat) (gd : Reg) (s : State) : State :=
  s.modSeq c fun q => { q with evnext := some (a, gd, q.wseq) }

/-- A write of the EVNEXT with place n, given what it reads. -/
def rereadWrite (gd : Reg) (n : Nat) (v : Word) (w : PendingWrite) : PendingWrite :=
  if w.seq = n then { w with what := .reg gd (TWord.plain v) }
  else if w.seq = n + 1 then { w with what := .flags fZ (flag fZ (v == 0x200)) }
  else w

/-- The EVNEXT of core c that reads as of cycle t, read again once an event has been accepted in that cycle (R339, R343). -/
def rereadEvnext (c : CoreId) (t : Nat) (s : State) : State :=
  match (s.core c).seq.evnext with
  | none => s
  | some (a, gd, n) =>
    if a ≠ t then s
    else
      let v := evnextWord s c
      let s := s.modSeq c fun q => { q with inflight := q.inflight.map (rereadWrite gd n v) }
      if isEven s c then s.modPair (pairOf c) fun p => { p with sysQ := p.sysQ.dropLast ++ [v] } else s

/-- R339: acceptance of event n on core c in cycle t; the odd core of a pair follows the even core (R90, R345). -/
def acceptEvent (c : CoreId) (t : Nat) (n : EventId) (s : State) : State :=
  if isOdd s c then s.modPair (pairOf c) fun p => { p with eventQ := p.eventQ.drop 1 }
  else
    let s := s.modCore c fun k => { k with evP := putBit k.evP n.val false, evS := putBit k.evS n.val true }
    let s := rereadEvnext c t s
    if isEven s c then s.modPair (pairOf c) fun p => { p with eventQ := p.eventQ ++ [(t, n)] } else s

/-- An imprecise cause is taken where event n would be accepted: the event stays pending, and the odd core of a pair
meets it at the same boundary (R90, R306). -/
def deferEvent (c : CoreId) (t : Nat) (n : EventId) (s : State) : State :=
  if isOdd s c then s.modPair (pairOf c) fun p => { p with eventQ := p.eventQ.drop 1 }
  else if isEven s c then s.modPair (pairOf c) fun p => { p with eventQ := p.eventQ ++ [(t, n)] }
  else s

/-- Base entry for an accepted base event (R304). -/
def enterEvent (c : CoreId) (t : Nat) (n : EventId) (code : BitVec 8) (s : State) : State :=
  let k := s.core c
  enterBase c t code (BitVec.ofNat 64 (n.val * 2 ^ 32)) k.resumePc k.back 0 (acceptEvent c t n s)

/-- Items 1 to 4 of R305: the base cause that is due on core c at a boundary in cycle t. -/
def baseDue (c : CoreId) (t : Nat) (s : State) : Option State :=
  let k := s.core c
  let acc := accepts k.seq
  match k.seq.mcDue.find? fun m => m.cycle ≤ t && (acc || m.info == 1) with
  | some m =>
    let s := s.modSeq c fun q => { q with mcDue := q.mcDue.erase m }
    some (enterBase c t 0x41 ((m.info.setWidth 64) <<< 32) k.resumePc k.back m.baddr s)
  | none =>
    if !acc then none
    else if baseEventDue s c t 339 then some (enterEvent c t 339 0x44 s)
    else if baseEventDue s c t 336 then some (enterEvent c t 336 0x42 s)
    else if baseEventDue s c t 338 then some (enterEvent c t 338 0x43 s)
    else none

/-- The pending imprecise cause of core c is taken in cycle t (R306). -/
def takeImprecise (c : CoreId) (t : Nat) (i : Imprecise) (s : State) : State :=
  let k := s.core c
  deliver c t { code := i.code, xpc := k.resumePc, xaddr := i.xaddr, xinfo := 0, fault := true, back := k.back }
    (s.modSeq c fun q => { q with imprecise := none })

/-- R268: an LIS word with an uncorrectable error at the fetch address makes a MACHINE_CHECK due in DE. -/
def fetchCheck (c : CoreId) (t : Nat) (s : State) : State :=
  let k := s.core c
  if s.eccBad.isEmpty || k.seq.mcDue.any (fun m => m.info == 1) then s
  else
    let a := lisBase c + (k.pc.toNat - lisLocal)
    if !within k.pc.toNat 4 lisLocal lisSize then s
    else match eccHit s a 4 with
      | some w => consumedEcc c t 1 w s
      | none => s

/-- An event is accepted by native entry in cycle t. -/
def takeEvent (c : CoreId) (t : Nat) (n : EventId) (s : State) : State :=
  let k := s.core c
  deliver c t { code := 0x20, xpc := k.resumePc, xaddr := 0, xinfo := BitVec.ofNat 64 n.val, fault := false,
                back := k.back } (acceptEvent c t n s)

/-- The imprecise cause that is taken at a boundary in cycle t: it is due by its slot, or an event would be accepted,
or a precise cause is due (R306). -/
def impreciseDue (c : CoreId) (t : Nat) (precise : Bool) (s : State) : Option Imprecise :=
  let k := s.core c
  match k.seq.imprecise with
  | none => none
  | some i =>
    if decide (i.after < t) && ((decide (i.due ≤ k.seq.slot) && k.seq.imm.isNone) || precise ||
        (accepts k.seq && (nativeEventDue s c t).isSome)) then some i else none

/-- An imprecise cause taken in cycle t, with the event that its boundary would have accepted left pending. -/
def takeImpreciseAt (c : CoreId) (t : Nat) (i : Imprecise) (s : State) : State :=
  let s := if accepts (s.core c).seq then
      match nativeEventDue s c t with
      | some n => deferEvent c t n s
      | none => s
    else s
  takeImprecise c t i s

/-! ## DE -/

/-- The cause that DE finds (R69, R94, R98, R177, R179), with the address that XPC names. -/
def deFault (k : Core) (f : Form) : Option Cause :=
  let q := k.seq
  let extended := q.imm.isSome && f.ext != .none
  let illegal := !f.legal || (q.imm.isSome && f.ext == .none) || (f.banned && inGroup q) || (q.rpt.isSome && !f.rptOk)
  let xpc := if extended || q.rpt.isSome then k.pc - 4 else k.pc
  if illegal then
    some { code := 0x01, xpc := xpc, xaddr := k.pc, xinfo := f.word.setWidth 64, fault := true, back := extended }
  else
    match q.rpt with
    | some r =>
      if r.gc ∈ f.writes then
        some { code := 0x02, xpc := xpc, xaddr := k.pc, xinfo := f.word.setWidth 64, fault := true, back := false }
      else none
    | none => none

/-- The cause of a trap of the instruction at the boundary (R180, R303, R527). -/
def Trap.cause (q : Trap) (k : Core) : Cause :=
  { code := q.code, xpc := k.resumePc, xaddr := if k.seq.rpt.isSome then k.pc else q.xaddr, xinfo := q.xinfo,
    fault := true, back := k.back }

/-! ## After the issue -/

/-- The repeat after one iteration has issued at t: gc takes the count that remains (R178). -/
def afterRepeat (c : CoreId) (t : Nat) (r : Repeat) (s : State) : State :=
  if r.left = 0 then s.modSeq c fun q => { q with rpt := none }
  else
    let left := r.left - 1
    let s := pushReg c (t + 1) r.gc (left.setWidth 128) s
    s.modSeq c fun q => { q with rpt := if left = 0 then none else some { r with left := left, fresh := false } }

/-- The PCC with its ADDR replaced. -/
def atPc (k : Core) (a : Addr) : Core := { k with x := { k.x with pcc := { k.x.pcc with val := setAddr k.x.pcc.val a } } }

/-- The core moves past an instruction that began in no slot of a branch: to the next word. -/
def advance (k : Core) : Core := atPc { k with seq := { k.seq with noAccept := false } } (k.pc + 4)

/-- The core moves past a delay slot of branch b: to the next word, or after the second slot of a taken branch to its
target under the new PCC (R66, R120, R283). -/
def advanceSlot (b : Branch) (k : Core) : Core :=
  if b.left ≤ 1 then
    if b.taken then
      { k with x := { k.x with pcc := b.target },
               seq := { k.seq with branch := none, invoke := b.invoked.map fun v => (b.seq, v) } }
    else atPc { k with seq := { k.seq with branch := none } } (k.pc + 4)
  else atPc { k with seq := { k.seq with branch := some { b with left := b.left - 1 } } } (k.pc + 4)

/-- The move past an instruction, by the branch that was pending before it. -/
def moveOn (b : Option Branch) (k : Core) : Core :=
  match b with
  | some b => advanceSlot b k
  | none => advance k

/-- One slot is counted and the prefix is used up; a shadow that was there before counts one instruction (R81); the next instruction
reached DE as this one issued (R54). -/
def countSlot (q0 : Seq) (t next : Nat) (q : Seq) : Seq :=
  { q with slot := q0.slot + 1, nextIssue := next, deAt := t, hold := none, str := none,
           imm := if q0.imm.isSome then none else q.imm,
           shadow := match q0.shadow with
             | some sh => some { sh with left := sh.left - 1 }
             | none => q.shadow }

/-- The bookkeeping of an instruction that issued at t with an issue cost, by the sequencing state q0 before it: one
slot, the mode shadow, the prefix, the repeat, and the move to the next instruction. A branch, a shadow, a prefix or a
repeat that the instruction itself began stays as it put it. -/
def finish (c : CoreId) (t cost : Nat) (q0 : Seq) (s : State) : State :=
  let s := s.modSeq c (countSlot q0 t (t + cost))
  match q0.rpt with
  | some r =>
    let s := afterRepeat c t r s
    if r.left ≤ 1 then s.modCore c (moveOn q0.branch) else s
  | none => s.modCore c (moveOn q0.branch)

/-! ## Arithmetic causes (R57, R146, R306) -/

/-- An imprecise cause of the instruction that issues: the first one stands (R146, R306). -/
def recordCause (c : CoreId) (code : BitVec 8) (s : State) : State :=
  let k := s.core c
  s.modSeq c fun q =>
    match q.imprecise with
    | some _ => q
    | none =>
      { q with imprecise := some { code := code, due := q.slot + (if stPA k.x.status then 1 else 5), after := 0, xaddr := k.pc } }

/-- A cause recorded where the condition holds. -/
def causeIf (b : Bool) (c : CoreId) (code : BitVec 8) (s : State) : State := if b then recordCause c code s else s

/-- The issue cost of an instruction that can raise an arithmetic cause (R57). -/
def paCost (k : Core) (n : Nat) : Nat := if stPA k.x.status then n + 3 else n

end Sys2Proof.Machine
end

