-- ==== Sys2Proof/Machine/Fabric.lean ====
section
/-! DEFINITION. The memory side of a core: the LDS store buffer (R72-R76), the vector queue as scalar accesses meet it
(R80), requests to the Slath fabric with their perform cycles (R253-R259), outstanding global loads (R59), and the acts
that a witness pair holds for comparison (R88, R91, R401). -/
namespace Sys2Proof.Machine

/-! ## The store buffer -/

/-- The entries that an LDS load of cycle t is compared with (R73, R75). -/
def presentEntries (ms : MemSide) (t : Nat) : List SbEntry :=
  ms.storeBuf.filter fun e => match e.drained with | some d => decide (t ≤ d) | none => true

/-- The memory side with the entries that drained before cycle t gone. -/
def pruneBuf (t : Nat) (ms : MemSide) : MemSide := { ms with storeBuf := presentEntries ms t }

/-- Bytes written through a core's own port (R72, R73, R267), with the tag of a capability store. -/
def putLocal (a : Nat) (bs : List Byte) (tag : Option Bool) (s : State) : State :=
  let s := partialEcc a bs.length s
  match tag with
  | some t => tagSet (putBytes s a bs) a t
  | none => storeBytes s a bs

/-- The first cycle from t on in which no scalar load uses the LDS port, over at most fuel cycles. -/
def freePort (busy : List Nat) : Nat → Nat → Nat
  | 0, t => t
  | n + 1, t => if busy.contains t then freePort busy n (t + 1) else t

/-- The cycle from t on in which an entry drains once no vector memory instruction holds it up (R73). -/
def drainFrom (ms : MemSide) (e : SbEntry) (t : Nat) : Nat :=
  freePort ms.loadE1 (ms.loadE1.length + 1) (max t (max (e.enter + 1) (ms.lastDrain + 1)))

/-- The oldest entry that has not drained drains into LDS in cycle d (R73). -/
def drainEntry (c : CoreId) (e : SbEntry) (d : Nat) (s : State) : State :=
  let mark (x : SbEntry) : SbEntry :=
    if x.enter = e.enter ∧ x.off = e.off ∧ x.drained.isNone then { x with drained := some d } else x
  (schedule c d 1 (.put (ldsBase c + e.off) e.bytes e.tag) s).modMs c fun m =>
    { m with lastDrain := d, storeBuf := m.storeBuf.map mark }

/-- Every entry that has not drained drains from cycle t on, oldest first (R76, R168). -/
def drainAll (c : CoreId) (t : Nat) (s : State) : State :=
  ((s.core c).ms.storeBuf.filter fun e => e.drained.isNone).foldl
    (fun s e => drainEntry c e (drainFrom (s.core c).ms e t) s) s

/-- The byte of an LDS offset that the youngest entry of a list holds, oldest first (R75). -/
def entryByte (o : Nat) (es : List SbEntry) : Option Byte :=
  es.foldl (fun b e => if e.off ≤ o ∧ o < e.off + e.bytes.length then e.bytes[o - e.off]? else b) none

/-- What the entries present in cycle t forward to a load of n bytes at an LDS offset (R75). -/
def forwarded (ms : MemSide) (t off n : Nat) : List (Option Byte) :=
  (List.range n).map fun i => entryByte (off + i) (presentEntries ms t)

/-- The tag that they forward to a capability load (R75). -/
def forwardedTag (ms : MemSide) (t off : Nat) : Option Bool :=
  (presentEntries ms t).foldl
    (fun g e => if overlaps e.off e.bytes.length (wordOf off) 16 then some (e.tag.getD false) else g) none

/-- R75: a load that overlaps an entry and does not lie wholly within the youngest one that it overlaps. -/
def partialOverlap (ms : MemSide) (t off n : Nat) : Bool :=
  let hits := (presentEntries ms t).filter fun e => overlaps e.off e.bytes.length off n
  match hits.getLast? with
  | none => false
  | some e => !(decide (e.off ≤ off) && decide (off + n ≤ e.off + e.bytes.length))

/-- A store enters the buffer in cycle t (R72). -/
def enterBuffer (c : CoreId) (t off : Nat) (bytes : List Byte) (tag : Option Bool) (s : State) : State :=
  s.modMs c fun m =>
    { pruneBuf t m with storeBuf := (pruneBuf t m).storeBuf ++ [{ off := off, bytes := bytes, tag := tag, enter := t, drained := none }] }

/-- A scalar load uses the LDS port in its E1, and a second part in the cycle after it (R73, R144). -/
def usePort (c : CoreId) (t parts : Nat) (s : State) : State :=
  s.modMs c fun m => { m with loadE1 := (m.loadE1.filter fun x => t ≤ x) ++ (List.range parts).map fun i => t + 2 + i }

/-! ## The vector queue as others meet it -/

/-- Whether a vector memory instruction is in the vector queue in cycle t (R73, R80). -/
def vecMemQueued (ms : MemSide) (t : Nat) : Bool :=
  ms.vq.any (fun e => e.isMem) || ms.vdone.any (fun d => d.isMem && decide (t ≤ d.last)) || !ms.vloads.isEmpty

/-- The entries that occupy the vector queue in cycle t (R77, R78). -/
def vecOccupied (ms : MemSide) (t : Nat) : Nat :=
  ms.vq.length + (ms.vdone.filter fun d => decide (t ≤ d.last)).length + ms.vloads.length

/-! ## Requests to the fabric -/

/-- The position that serves an address, none in control space (R250, R254, R259). -/
def position (a : Nat) : Option Nat :=
  if inGlobal a 1 then some ((a - globalBase) / 64 % 48)
  else if touchesWindow a 1 then some ((a - 0x100000000) / 0x100000)
  else none

/-- R255: the perform cycle of a request of core c eligible from e. -/
def performCycle (c : CoreId) (p e : Nat) : Nat := e + 2 * ((p + 48 * (c.val + e / 2) - c.val - e / 2) % 48)

/-- The perform cycle for an address, from an eligible cycle (R255, R259). -/
def performAt (c : CoreId) (a e : Nat) : Nat :=
  match position a with
  | some p => performCycle c p e
  | none => e

/-- R258, R259: the parts of an access of n bytes issued at t: perform cycle, address and length. -/
def accessParts (c : CoreId) (a n t : Nat) : List (Nat × Nat × Nat) :=
  let e := evenFrom (t + 3)
  let a2 := wordOf a + 16
  if a + n ≤ a2 then [(performAt c a e, a, n)]
  else
    let p1 := performAt c a e
    let p2 := if (position a).isSome && a / 64 == a2 / 64 then p1 else performAt c a2 (e + 2)
    [(p1, a, a2 - a), (p2, a2, a + n - a2)]

/-- Whether a global access splits (R258). -/
def splits (a n : Nat) : Bool := decide (wordOf a + 16 < a + n)

/-- A number for a request or a load. -/
def takeId (c : CoreId) (s : State) : Nat × State :=
  ((s.core c).ms.nextId, s.modMs c fun m => { m with nextId := m.nextId + 1 })

/-- A request of the instruction at a place in the order of issue sent to the fabric. -/
def sendReq (c : CoreId) (seq due addr : Nat) (key : BitVec 4) (base : Bool) (kind : FabricKind) (s : State) : State :=
  let (n, s) := takeId c s
  s.modMs c fun m =>
    { m with freqs := m.freqs ++ [{ order := n, seq := seq, due := due, addr := addr, key := key, base := base, kind := kind }] }

/-- The parts of a store sent to the fabric, as if issued in cycle t (R255, R258, R260). -/
def sendStore (c : CoreId) (seq t a : Nat) (bytes : List Byte) (tag : Option Bool) (key : BitVec 4) (base : Bool)
    (s : State) : State :=
  (accessParts c a bytes.length t).foldl (fun s (due, x, n) =>
    sendReq c seq due x key base (.store (slice bytes (x - a) n) tag) s) s

/-- The number of global loads outstanding in cycle t (R59). -/
def outstanding (ms : MemSide) (t : Nat) : Nat := (ms.gloads.filter fun g => decide (t < g.due)).length

/-- A global load issued in cycle t: its requests, and the load that waits for them; the odd core of a pair takes
the even core's bytes (R59, R88, R256, R260). -/
def sendLoad (c : CoreId) (t a n : Nat) (dest : LoadDest) (key : BitVec 4) (base : Bool) (s : State) : State :=
  let (lid, s) := takeId c s
  let (seq, s) := takeSeq c s
  let twin := isOdd s c
  let due := t + (if splits a n then 106 else 104)
  let s := s.modMs c fun m =>
    { m with gloads := m.gloads ++ [{ lid := lid, seq := seq, due := due, dest := dest, data := List.replicate n 0,
                                      tag := false, bad := none, twin := twin }] }
  if twin then s
  else (accessParts c a n t).foldl (fun s (p, x, k) => sendReq c seq p x key base (.load lid (x - a) k) s) s

/-! ## Acts of a witness pair (R91, R401) -/

/-- A held act put in its place by cycle. -/
def insertHeld (h : HeldAct) : List HeldAct → List HeldAct
  | [] => [h]
  | x :: r => if h.cycle < x.cycle then h :: x :: r else x :: insertHeld h r

/-- An act of the instruction at pc, at a place in the order of issue, held for comparison with its cycle. -/
def holdActAt (c : CoreId) (pc : Addr) (seq t : Nat) (gd : Reg) (act : Act) (s : State) : State :=
  let h : HeldAct := { act := act, cycle := t, pc := pc, gd := gd, seq := seq }
  s.modPair (pairOf c) fun p =>
    if c.val % 2 = 0 then { p with evenActs := insertHeld h p.evenActs } else { p with oddActs := insertHeld h p.oddActs }

/-- An act of the instruction at the boundary held for comparison. -/
def holdAct (c : CoreId) (t : Nat) (gd : Reg) (act : Act) (s : State) : State :=
  let (seq, s) := takeSeq c s
  holdActAt c (s.core c).pc seq t gd act s

/-- A store outside LDS and LIS: an act on a pair, sent at once on a lone core. -/
def storeOut (c : CoreId) (t a : Nat) (bytes : List Byte) (tag : Option Bool) (key : BitVec 4) (s : State) : State :=
  let base := (s.core c).atBase
  if paired s c then holdAct c t 0 (.store a bytes tag key base) s else sendStore c (s.core c).seq.wseq t a bytes tag key base s

/-- A value that a pair reads once: the even core's reading goes to the odd core too (R88, R89). -/
def sharedValue (c : CoreId) (v : Word) (s : State) : Word × State :=
  if isEven s c then (v, s.modPair (pairOf c) fun p => { p with sysQ := p.sysQ ++ [v] })
  else if isOdd s c then
    match (s.pair (pairOf c)).sysQ with
    | x :: r => (x, s.modPair (pairOf c) fun p => { p with sysQ := r })
    | [] => (v, s)
  else (v, s)

/-- A block write of the instruction at pc, at a place in the order of issue, issued in cycle x: an act on a pair, else sent to the fabric (R175, R218, R259). -/
def sendBlock (c : CoreId) (pc : Addr) (seq x addr : Nat) (img : List (Option Byte)) (key : BitVec 4) (base : Bool) (s : State) : State :=
  if paired s c then holdActAt c pc seq x 0 (.block addr img) s
  else sendReq c seq (performAt c addr (evenFrom (x + 3))) addr key base (.blockWrite img) s

/-- A block read of core c issued in cycle x; of a pair, the even core's is sent for both (R88, R167, R218). -/
def sendBlockRead (c : CoreId) (x addr : Nat) (key : BitVec 4) (base toVec : Bool) (s : State) : State :=
  let (bid, s) := takeId c s
  let s := s.modMs c fun m =>
    { m with blocks := m.blocks ++ [{ bid := bid, sent := x, addr := addr, data := none, bad := none, toVec := toVec }] }
  if isOdd s c then s else sendReq c 0 (performAt c addr (evenFrom (x + 3))) addr key base (.blockRead bid) s

/-! ## Holds of a scalar access (R53, R59, R74-R76, R80) -/

/-- What a scalar access asks of the memory side before it may issue. -/
structure Needs where
  region : Option Region
  /-- offset and length of each LDS read -/
  reads : List (Nat × Nat)
  /-- global reads -/
  globals : Nat
  /-- room in the store buffer -/
  room : Nat
  /-- whether it waits for a queued vector memory instruction -/
  order : Bool

/-- R53: whether issue is held in cycle t, with what the held cycle leaves. A partial overlap holds for 6 cycles
from the one that finds it. -/
def accessHeld (k : Core) (t : Nat) (n : Needs) : Option (Seq → Seq) :=
  let ms := k.ms
  match k.seq.hold with
  | some h => if t < h then some id else none
  | none =>
    if n.order && vecMemQueued ms t then some id
    else if n.globals ≠ 0 && decide (8 < outstanding ms t + n.globals) then some id
    else if n.room ≠ 0 && decide (4 < (presentEntries ms t).length + n.room) then some id
    else if n.reads.any fun (o, len) => partialOverlap ms t o len then some fun q => { q with hold := some (t + 6) }
    else none

end Sys2Proof.Machine
end

