-- ==== Sys2Proof/Machine/EngineDesc.lean ====
section
/-! DEFINITION. What the engines hold and read: status values (R383), the key store and its handles (R388-R390, R532), the request
descriptor and its checks (R380, R381, R529), and the queues (R378, R379, R382). -/
namespace Sys2Proof.Machine

/-! ## Access -/

/-- Engine e changed. -/
def modEngine (e : EngineId) (f : Engine → Engine) (s : State) : State := { s with engines := s.engines.set e (f s.engines[e]) }
/-- The key store changed. -/
def modKs (f : KeyStore → KeyStore) (s : State) : State := { s with ks := f s.ks }

/-! ## Status values (R383) -/

/-- OK. -/
def stOk : BitVec 16 := 0
/-- VERIFY_FAIL. -/
def stVerifyFail : BitVec 16 := 1
/-- BAD_OP. -/
def stBadOp : BitVec 16 := 2
/-- KEY_INVALID. -/
def stKeyInvalid : BitVec 16 := 3
/-- KEY_SUPPRESSED. -/
def stKeySuppressed : BitVec 16 := 4
/-- BOUNDS. -/
def stBounds : BitVec 16 := 5
/-- KEY_MISMATCH. -/
def stKeyMismatch : BitVec 16 := 6
/-- NOT_READY. -/
def stNotReady : BitVec 16 := 7
/-- PIN_FORMAT. -/
def stPinFormat : BitVec 16 := 8
/-- TRANSLATE_DENIED. -/
def stDenied : BitVec 16 := 9
/-- ECC. -/
def stEcc : BitVec 16 := 10
/-- ZEROISED. -/
def stZeroised : BitVec 16 := 11
/-- NO_SLOT. -/
def stNoSlot : BitVec 16 := 12

/-- A result without output. -/
def EngResult.of (st : BitVec 16) : EngResult := { status := st, out := [], handles := 0 }
/-- A successful result with its output. -/
def EngResult.ok (out : List Byte) : EngResult := { status := stOk, out := out, handles := 0 }

/-! ## Key types (R388) -/

/-- The slots that a key type occupies, 0 for no key type. -/
def keySlots (t : Nat) : Nat := [0, 1, 1, 1, 1, 1, 1, 2, 2, 3, 2, 2, 1, 15, 22, 29, 5, 7, 9, 1].getD t 0

/-- The bytes of key material of a type: EC scalar ‖ X ‖ Y, EC X ‖ Y, Ed25519 seed ‖ public key, RSA n ‖ p ‖ q ‖ dp ‖ dq ‖
qInv, RSA n ‖ e in four bytes (log entry 20); a SECRET has 32 or 48. -/
def keyBytes (t : Nat) : Nat := [0, 16, 32, 16, 24, 32, 48, 96, 64, 144, 96, 64, 32, 896, 1344, 1792, 260, 388, 516, 48].getD t 0

/-- Whether a type is that of a public key. -/
def isPublicType (t : Nat) : Bool := [0x08, 0x0A, 0x0C, 0x10, 0x11, 0x12].contains t

/-! ## Handles and slots (R389, R390, R532) -/

/-- The generation of a first slot. -/
def slotGen (ks : KeyStore) (f : Nat) : Nat := ((ks.gens.find? fun g => g.1 == f).map fun g => g.2).getD 0

/-- R389: the handle of the key at slot f. -/
def handleOf (ks : KeyStore) (f : Nat) : Word :=
  let addr := f + slotGen ks f * 2 ^ 16 + ks.epoch.toNat * 2 ^ 36
  let b := addr % 2 ^ 21
  BitVec.ofNat 128 ((2 ^ permENGINE + 2 ^ permGLOBAL) * 2 ^ 114 + 0x3FF * 2 ^ 100 + (b + 1) % 2 ^ 21 * 2 ^ 73 + b * 2 ^ 52 + addr)

/-- R389, R381: the key that a word of a descriptor names, none where it is no valid handle. -/
def keyNamed (ks : KeyStore) (h : TWord) : Option KeyEntry :=
  let a := (capAddr h.val).toNat
  if isHandle h && hasPerm h.val permGLOBAL && decide (a / 2 ^ 36 = ks.epoch.toNat) && decide (a / 2 ^ 16 % 2 ^ 20 = slotGen ks (a % 2 ^ 16)) then
    ks.keys.find? fun k => k.slot == a % 2 ^ 16
  else none

/-- Whether n slots from f on can take a key: below 65,536, empty, and not retired. -/
def slotsFree (ks : KeyStore) (f n : Nat) : Bool :=
  decide (f + n ≤ 65536) && ks.keys.all (fun k => !(decide (k.slot < f + n) && decide (f < k.slot + k.nslot))) &&
  ks.retired.all fun r => !(decide (f ≤ r) && decide (r < f + n))

/-- A key put into the key store at slot f. -/
def addKey (f t : Nat) (usage : BitVec 16) (label material : List Byte) (ks : KeyStore) : KeyStore :=
  { ks with badSlots := ks.badSlots.filter fun b => !(decide (f ≤ b) && decide (b < f + keySlots t)),
            softSlots := ks.softSlots.filter fun b => !(decide (f ≤ b) && decide (b < f + keySlots t)),
            keys := ks.keys ++ [{ slot := f, ktype := BitVec.ofNat 8 t, nslot := keySlots t, usage := usage &&& 0x3FF,
                                  label := padTo 8 label, material := material }] }

/-- R390: a key deleted; the generation of its first slot advances, or the slot is retired. -/
def deleteKey (k : KeyEntry) (ks : KeyStore) : KeyStore :=
  let g := slotGen ks k.slot
  let ks := { ks with keys := ks.keys.filter fun x => x.slot ≠ k.slot }
  if g = 0xFFFFF then { ks with retired := k.slot :: ks.retired }
  else { ks with gens := (k.slot, g + 1) :: ks.gens.filter fun x => x.1 ≠ k.slot }

/-! ## The descriptor (R380) -/

/-- The descriptor that 64 bytes hold, with the tags of its two key words. -/
def parseDesc (b : List Byte) (t1 t2 : Bool) : Desc :=
  let n (i k : Nat) : Nat := ofLe (slice b i k)
  { op := BitVec.ofNat 16 (n 0 2), flags := b.getD 2 0, dbcore := b.getD 3 0, inlen := n 4 4, inoff := n 8 4, outoff := n 12 4,
    key1 := { val := BitVec.ofNat 128 (n 16 16), tag := t1 }, key2 := { val := BitVec.ofNat 128 (n 32 16), tag := t2 },
    param := slice b 48 8, reserved := BitVec.ofNat 32 (n 60 4) }

/-- The descriptor of a request that has none: an operation with its input handed over (R376, R419). -/
def bareDesc (op : BitVec 16) (flags : Byte) (n : Nat) : Desc :=
  { op := op, flags := flags, dbcore := 0, inlen := n, inoff := 0, outoff := 0, key1 := TWord.null, key2 := TWord.null,
    param := List.replicate 8 0, reserved := 0 }

/-- FLAGS.INLINE. -/
def Desc.inline (d : Desc) : Bool := d.flags.getLsbD 0
/-- FLAGS.DB. -/
def Desc.db (d : Desc) : Bool := d.flags.getLsbD 1
/-- FLAGS.DEC. -/
def Desc.dec (d : Desc) : Bool := d.flags.getLsbD 2
/-- The bytes [lo, lo + n) of PARAM as a number. -/
def Desc.par (d : Desc) (lo n : Nat) : Nat := ofLe (slice d.param lo n)

/-- The block of a PIN format: AES for format 4, TDES else (R386). -/
def pinBlock (format : Nat) : Nat := if format = 4 then 16 else 8
/-- The formats of R386. -/
def pinFormats : List Nat := [0, 1, 3, 4]

/-- What an operation takes: whether its lengths are within its limits, the lengths of input and output, and C. -/
structure Shape where
  ok : Bool
  inLen : Nat
  outLen : Nat
  count : Nat

/-- The width of the curve of a curve operation in bytes. -/
def opSize (op : Nat) : Nat := if [0x0103, 0x0104, 0x0108, 0x010A].contains op then 48 else 32

/-- R384: the curve operations. The exact sizes of inputs that vary by key are the model's (log entry 20). -/
def curveShape (d : Desc) (op : Nat) : Shape :=
  let n := d.inlen
  let z := opSize op
  let fixed (i o c : Nat) : Shape := { ok := n == i, inLen := n, outLen := o, count := c }
  let key (m : Nat) : Nat := if d.inline then m else 0
  match op with
  | 0x0101 => fixed 32 64 14000
  | 0x0102 => fixed (3 * z + key (2 * z)) 0 24000
  | 0x0103 => fixed 48 96 30000
  | 0x0104 => fixed (3 * z + key (2 * z)) 0 52000
  | 0x0105 => { ok := decide (n ≤ 4096), inLen := n, outLen := 64, count := 12000 + 80 * (cdiv (n + 49) 128 + cdiv (n + 81) 128) }
  | 0x0106 =>
    { ok := decide (n ≤ 4096) && decide (64 + key 32 ≤ n), inLen := n, outLen := 0, count := 22000 + 80 * cdiv (n + 81) 128 }
  | 0x0107 => fixed 72 16 13000
  | 0x0108 => fixed 104 16 28000
  | 0x0109 => fixed 8 96 14000
  | 0x010A => fixed 8 128 30000
  | 0x010B => fixed 8 64 12000
  | 0x0111 => fixed 32 256 180000
  | 0x0112 => fixed 32 384 560000
  | 0x0113 => fixed 32 512 1280000
  | 0x0114 => fixed (32 + 256 + key 260) 0 6000
  | 0x0115 => fixed (32 + 384 + key 388) 0 13000
  | 0x0116 => fixed (32 + 512 + key 516) 0 22000
  | _ => fixed 48 96 30000

/-- R385, R390: the symmetric operations, with r of the AES key named and the slots of the key named. -/
def symShape (s : State) (d : Desc) (op : Nat) : Shape :=
  let n := d.inlen
  let k1 := keyNamed s.ks d.key1
  let r := match k1 with
    | some k => if k.ktype = 1 then 11 else if k.ktype = 2 then 15 else Config.unkeyedCount
    | none => Config.unkeyedCount
  let lim := decide (n ≤ 65536)
  let made (ok : Bool) (c : Nat) : Shape := { ok := lim && ok, inLen := n, outLen := 16, count := c }
  let mac (m : Nat) (c : Nat) : Shape :=
    { ok := lim && (!d.dec || decide (m ≤ n)), inLen := n, outLen := if d.dec then 0 else m, count := c }
  match op with
  | 0x0201 => { ok := lim && n % 16 == 0, inLen := n, outLen := n, count := 20 + r * cdiv n 16 }
  | 0x0202 => { ok := lim && decide (16 ≤ n) && n % 16 == 0, inLen := n, outLen := n - 16, count := 20 + r * cdiv (n - 16) 16 }
  | 0x0203 =>
    let a := d.par 0 4
    let p := n - (12 + a + if d.dec then 16 else 0)
    { ok := lim && decide (12 + a + (if d.dec then 16 else 0) ≤ n), inLen := n, outLen := p + (if d.dec then 0 else 16),
      count := 40 + r * (cdiv a 16 + cdiv p 16 + 1) }
  | 0x0204 => mac 16 (30 + r * max (cdiv (n - if d.dec then 16 else 0) 16) 1)
  | 0x0205 => { ok := lim && n % 8 == 0, inLen := n, outLen := n, count := 20 + 48 * cdiv n 8 }
  | 0x0206 => { ok := lim && decide (8 ≤ n) && n % 8 == 0, inLen := n, outLen := n - 8, count := 20 + 48 * cdiv (n - 8) 8 }
  | 0x0207 => { ok := lim, inLen := n, outLen := 32, count := 20 + 40 * cdiv (n + 9) 64 }
  | 0x0208 => { ok := lim, inLen := n, outLen := 48, count := 20 + 80 * cdiv (n + 17) 128 }
  | 0x0209 => { ok := lim, inLen := n, outLen := 32, count := 20 + 30 * cdiv (n + 1) 136 }
  | 0x020A => mac 32 (20 + 40 * (cdiv (n + 9) 64 + 3))
  | 0x020B => mac 48 (20 + 80 * (cdiv (n + 17) 128 + 3))
  | 0x020C =>
    let p := d.par 2 1
    { ok := decide (12 ≤ p) && decide (p ≤ 19) && n == pinBlock (d.par 0 1) + p, inLen := n, outLen := pinBlock (d.par 1 1),
      count := 200 }
  | 0x020D => { ok := decide (n ≤ 4096), inLen := 0, outLen := n, count := 20 + 12 * cdiv n 16 }
  | 0x0301 => made (n == 8) 60
  | 0x0302 =>
    let t := d.par 4 1
    let m := if t = 0x13 then (if n = 48 then 32 else 48) else keyBytes t
    made (keySlots t == 0 || n == 16 + 8 * cdiv m 8) (40 + 6 * r * cdiv m 8)
  | 0x0303 =>
    let t := d.par 4 1
    made (decide (8 ≤ n) && (!isPublicType t || n == 8 + keyBytes t)) (20 + 2 * (if keySlots t = 0 then Config.unkeyedCount else keySlots t))
  | 0x0304 =>
    match k1 with
    | some k => { ok := lim, inLen := n, outLen := 64 * k.nslot + 8, count := 40 + 720 * k.nslot }
    | none => { ok := lim, inLen := n, outLen := 0, count := 40 + 720 * Config.unkeyedCount }
  | 0x0305 => made (n % 64 == 8 && [1, 2, 3, 5, 7, 9, 15, 22, 29].contains (n / 64)) (40 + 720 * (n / 64))
  | _ => { ok := lim, inLen := n, outLen := 0, count := 20 }

/-- The operations of the curve engines and, with IDSIGN, of the housekeeping engine (R384, R387). -/
def curveOps : List Nat :=
  [0x0101, 0x0102, 0x0103, 0x0104, 0x0105, 0x0106, 0x0107, 0x0108, 0x0109, 0x010A, 0x010B, 0x0111, 0x0112, 0x0113, 0x0114, 0x0115,
   0x0116]
/-- The operations of the symmetric engines (R385, R390). -/
def symOps : List Nat :=
  [0x0201, 0x0202, 0x0203, 0x0204, 0x0205, 0x0206, 0x0207, 0x0208, 0x0209, 0x020A, 0x020B, 0x020C, 0x020D, 0x0301, 0x0302, 0x0303,
   0x0304, 0x0305, 0x0306]
/-- Whether an engine performs an operation (R377). -/
def performs (e op : Nat) : Bool :=
  if e ≤ 32 then curveOps.contains op || (e == 32 && op == 0x0180) else symOps.contains op

/-- Whether an operation uses KEY1 (R381). -/
def usesKey1 (d : Desc) : Bool :=
  let op := d.op.toNat
  [0x0101, 0x0103, 0x0105, 0x0107, 0x0108, 0x0111, 0x0112, 0x0113, 0x0201, 0x0202, 0x0203, 0x0204, 0x0205, 0x0206, 0x020A, 0x020B,
   0x020C, 0x0302, 0x0304, 0x0306].contains op ||
  ([0x0102, 0x0104, 0x0106, 0x0114, 0x0115, 0x0116].contains op && !d.inline)

/-- The number of handles that an operation writes (R384, R390). -/
def handlesOf (op : Nat) : Nat :=
  if [0x0109, 0x010A, 0x010B].contains op then 2 else if [0x0107, 0x0108, 0x0301, 0x0302, 0x0303, 0x0305].contains op then 1 else 0

/-- Whether an operation uses a key or the DMK, as zeroisation takes it: it names a key, or it creates one (R392). -/
def usesKeys (d : Desc) : Bool := usesKey1 d || handlesOf d.op.toNat ≠ 0

/-- R381, R385, R492: the reasons for BAD_OP. -/
def badOp (s : State) (e : Nat) (d : Desc) : Bool :=
  let op := d.op.toNat
  !performs e op || decide (8 ≤ d.flags.toNat) || d.reserved ≠ 0 || (!usesKey1 d && d.key1.val ≠ 0) ||
  (op == 0x0180 && s.pw.bootSel == 2) || (op ≠ 0x020C && d.key2.val ≠ 0) ||
  ([0x0111, 0x0112, 0x0113, 0x0114, 0x0115, 0x0116].contains op && decide (1 < d.par 0 1)) ||
  (op == 0x020C && !(pinFormats.contains (d.par 0 1) && pinFormats.contains (d.par 1 1))) ||
  (decide (32 < e) && d.db && decide (coreCount s.grade ≤ d.dbcore.toNat))

/-- R381: whether n bytes from a on lie within the data capability and the global scratchpad, under a permission. -/
def dataRange (gb : Word) (a n p : Nat) : Bool := n == 0 || (inBounds gb a n && inGlobal a n && hasPerm gb p)

/-! ## Submission (R378, R379) -/

/-- Whether a request comes from a core. -/
def EngSource.isCore : EngSource → Bool
  | .core _ _ => true
  | _ => false

/-- The fabric cycle in which the oldest request of an engine can start its fetch, none while it has none (R379, R382). -/
def fetchStart (g : Engine) : Option Nat :=
  if g.fetch.isSome then none
  else match g.jqueue, g.queue with
    | [], [] => none
    | j :: _, [] => some (max g.fetchFree j.entry)
    | [], q :: _ => some (max g.fetchFree q.entry)
    | j :: _, q :: _ => some (max g.fetchFree (min j.entry q.entry))

/-- The request that starts in fabric cycle f: the oldest of the journal ahead of every core request (R379). -/
def fetchNext (g : Engine) (f : Nat) : Option EngReq :=
  match g.jqueue with
  | j :: _ => if j.entry ≤ f then some j else g.queue.head?
  | [] => g.queue.head?

/-- The queue entries occupied in fabric cycle f: a request whose fetch has started has left its entry (R379). -/
def occupied (g : Engine) (f : Nat) : Nat :=
  g.queue.length -
    match fetchStart g with
    | some x =>
      (if x ≤ f then (match fetchNext g x with
        | some r => (match r.source with | .journal _ _ => 0 | _ => 1)
        | none => 0) else 0)
    | none => 0

/-- ESUB performed as if issued in cycle t, after the stores of a core up to a place in the order of issue: its result (R378, R379). -/
def submitEsub (c : CoreId) (t e : Nat) (ga gb : TWord) (base : Bool) (after : Option (CoreId × Nat)) (s : State) : Word × State :=
  if h : e < 49 then
    if !enginePresent s e || (e == 32 && !base) then (2, s)
    else
      let g := s.engines[e]
      let full := 4 ≤ occupied g (t / 2) + (g.accepted.filter fun r => r.source.isCore).length
      if full then (1, s)
      else
        (0, modEngine ⟨e, h⟩ (fun g => { g with accepted := g.accepted ++ [
          { ga := ga, gb := gb, source := .core c base, entry := fcFrom (t + 3), after := after, marked := false }] }) s)
  else (2, s)

/-! ## Fetch (R381, R382, R528) -/

/-- What a fetch finds: the refusal of the descriptor's frame, the descriptor, the status so far, the shape, and the
addresses of input and output. -/
structure Fetched where
  refused : Bool
  desc : Desc
  pre : BitVec 16
  shape : Shape
  inAddr : Nat
  outAddr : Nat

/-- The data address of an offset. -/
def dataAddr (gb : TWord) (off : Nat) : Nat := ((capAddr gb.val).toNat + off) % 2 ^ 52

/-- The checks of R381 on a descriptor that was read, in the order of R529. The frames of the input are checked as its blocks are sent, and
those of the output here and as its blocks are sent (R528). -/
def checkDesc (s : State) (e : Nat) (r : EngReq) (d : Desc) : Fetched :=
  let a := (capAddr r.ga.val).toNat
  let op := d.op.toNat
  let ia := dataAddr r.gb d.inoff
  let oa := dataAddr r.gb d.outoff
  if badOp s e d then
    { refused := false, desc := d, pre := stBadOp, shape := { ok := true, inLen := 0, outLen := 0, count := 1 }, inAddr := ia, outAddr := oa }
  else
    let sh := if e ≤ 32 then curveShape d op else symShape s d op
    let key := capKey r.gb.val
    let pre :=
      if !sh.ok || !dataRange r.gb.val ia sh.inLen permLD || !dataRange r.gb.val oa sh.outLen permST ||
          overlaps oa sh.outLen a 64 || (handlesOf op ≠ 0 && d.outoff % 16 ≠ 0) then stBounds
      else if (keyRefusal s key true oa sh.outLen).isSome then stKeyMismatch
      else stOk
    { refused := false, desc := d, pre := pre, shape := sh, inAddr := ia, outAddr := oa }

/-- What the fetch of a request that has no descriptor finds, or of one that its descriptor's frame refuses (R376, R381, R419). -/
def fetchBare (r : EngReq) : Fetched :=
  let bare (op : BitVec 16) (flags : Byte) (n c : Nat) : Fetched :=
    { refused := false, desc := bareDesc op flags n, pre := stOk, shape := { ok := true, inLen := 0, outLen := 0, count := c },
      inAddr := 0, outAddr := 0 }
  match r.source with
  | .journal _ dg => bare 0x0180 0 dg.length 30000
  | .loader dg sg pk => bare 0x0104 1 (dg.length + sg.length + pk.length) 52000
  | .core _ _ => { bare 0 0 0 1 with refused := true }

/-- The input that the journal unit or the loader sends with its request (R379, R418). -/
def EngSource.bytes : EngSource → List Byte
  | .journal _ dg => dg
  | .loader dg sg pk => dg ++ sg ++ pk
  | .core _ _ => []

/-- The engine without the request that starts its fetch. -/
def dequeue (r : EngReq) (g : Engine) : Engine :=
  match r.source with
  | .journal _ _ => { g with jqueue := g.jqueue.drop 1 }
  | _ => { g with queue := g.queue.drop 1 }

/-! ## The background requests of an engine (R261, R528) -/

/-- An engine's place in the order of R261. -/
def whoEngine (e : EngineId) : Nat := 64 + e.val

/-- The item that an access serves: 0 the descriptor, 1 the input, 2 the output, 3 STATUS, of the request that started in a fabric
cycle. -/
def engJob (start k : Nat) : Nat := 4 * start + k

/-- The descriptor of a request that starts its fetch in fabric cycle f0 is read (R381, R528). Its frame is checked as for a store, which
passes the test of a load too. -/
def sendDesc (e : EngineId) (f0 : Nat) (r : EngReq) (s : State) : State :=
  sendBg { who := whoEngine e, addr := (capAddr r.ga.val).toNat, sent := f0, after := r.after, job := engJob f0 0, off := 0, what := .read 64 }
    (some (capKey r.ga.val)) true s

/-- Block k of the input is sent in F0 + 4 + 4k, and no earlier than the fabric cycle after the descriptor has come (R528). -/
def sendInput (e : EngineId) (st : EngStage) (a n f : Nat) (s : State) : State :=
  (blockParts a n).zipIdx.foldl (fun s ((x, m), k) =>
    sendBg { who := whoEngine e, addr := x, sent := max (st.start + 4 + 4 * k) (f + 1), after := st.req.after, job := engJob st.start 1,
             off := x - a, what := .read m } (some (capKey st.req.gb.val)) false s) s

/-- A stage whose fetch has found what it has, with the fabric cycles of the stages (R382). -/
def stageOf (r : EngReq) (f0 cmpEnd : Nat) (x : Fetched) : EngStage :=
  let fetchEnd := f0 + 130 + 4 * blocksOf x.inAddr x.shape.inLen - 1
  let cmpStart := max fetchEnd cmpEnd + 1
  let stop := cmpStart + x.shape.count - 1
  { req := r, known := true, start := f0, fetchEnd := fetchEnd, cmpStart := cmpStart, cmpEnd := stop,
    wbEnd := stop + 130 + 4 * blocksOf x.outAddr x.shape.outLen, refused := x.refused, desc := x.desc,
    unread := r.source.isCore && !x.refused && x.pre == stOk && decide (0 < x.shape.inLen),
    input := r.source.bytes, pre := x.pre, outLen := x.shape.outLen, result := EngResult.of x.pre }

/-- A request that has started its fetch and whose descriptor has not come. -/
def stageUnknown (r : EngReq) (f0 : Nat) : EngStage := { stageOf r f0 0 (fetchBare r) with known := false, refused := false, unread := true }

/-- The stage of engine e once its fetch has found what it has. -/
def setStage (e : EngineId) (r : EngReq) (f0 : Nat) (x : Fetched) (s : State) : State :=
  modEngine e (fun g =>
    let st := stageOf r f0 g.cmpEnd x
    { g with fetch := some st, fetchFree := st.cmpStart, cmpEnd := st.cmpEnd }) s

/-- What came of the background requests of a requester for an item. -/
def doneOf (s : State) (who job : Nat) : List BgDone := s.bgDone.filter fun d => d.who = who ∧ d.job = job

/-- The same taken out. -/
def dropDone (who job : Nat) (s : State) : State := { s with bgDone := s.bgDone.filter fun d => !(d.who = who ∧ d.job = job) }

/-- n bytes put together from what came of reads. -/
def gathered (ds : List BgDone) (n : Nat) : List Byte := ds.foldl (fun l d => overlay l d.off d.bytes) (List.replicate n 0)

/-- The descriptor of the request that engine e fetches has come, or was refused (R381, R528). -/
def gotDesc (e : EngineId) (st : EngStage) (d : BgDone) (f : Nat) (s : State) : State :=
  let s := dropDone d.who d.job s
  if d.refused.isSome then setStage e st.req st.start (fetchBare st.req) s
  else
    let a := (capAddr st.req.ga.val).toNat
    let x := checkDesc s e.val st.req (parseDesc d.bytes (d.tags.contains (a + 16)) (d.tags.contains (a + 32)))
    let s := setStage e st.req st.start x s
    match s.engines[e].fetch with
    | some y => if y.unread then sendInput e y x.inAddr x.shape.inLen f s else s
    | none => s

/-- The whole input has come: a refused frame gives KEY_MISMATCH, an uncorrectable error ECC (R383, R528, R529). -/
def gotInput (e : EngineId) (st : EngStage) (s : State) : State :=
  let n := st.desc.inlen
  let ds := doneOf s (whoEngine e) (engJob st.start 1)
  if ds.length < blocksOf (dataAddr st.req.gb st.desc.inoff) n then s
  else
    let pre := if ds.any fun d => d.refused.isSome then stKeyMismatch else if ds.any fun d => d.bad.isSome then stEcc else st.pre
    modEngine e (fun g => { g with fetch := some { st with unread := false, input := gathered ds n, pre := pre } })
      (dropDone (whoEngine e) (engJob st.start 1) s)

/-- A background request of engine e has come to something in fabric cycle f. -/
def engineGot (e : EngineId) (f : Nat) (s : State) : State :=
  match s.engines[e].fetch with
  | none => s
  | some st =>
    if st.known then (if st.unread then gotInput e st s else s)
    else
      match doneOf s (whoEngine e) (engJob st.start 0) with
      | d :: _ => gotDesc e st d f s
      | [] => s

/-! ## Write-back (R381, R528) -/

/-- Block k of the output is sent in F1 + 4k, with the tags of the handles (R381, R528). -/
def sendOutput (e : EngineId) (st : EngStage) (f1 : Nat) (r : EngResult) (s : State) : State :=
  let a := dataAddr st.req.gb st.desc.outoff
  let handles := if a % 16 = 0 then (List.range r.handles).map fun i => a + 16 * i else []
  (blockParts a r.out.length).zipIdx.foldl (fun s ((x, m), k) =>
    sendBg { who := whoEngine e, addr := x, sent := f1 + 4 * k, after := none, job := engJob st.start 2, off := x - a,
             what := .write ((slice r.out (x - a) m).map some) (handles.filter fun w => decide (x ≤ w) && decide (w < x + m)) }
      (some (capKey st.req.gb.val)) true s) s

/-- STATUS and OUTLEN of a request are sent in F1 + 4 b_out, where the descriptor's frame still passes the key rule; an output block that was
refused makes the status KEY_MISMATCH (R383, R528). -/
def sendStatus (e : EngineId) (start f : Nat) (s : State) : State :=
  match s.engines[e].wb.find? fun st => st.start = start with
  | none => s
  | some st =>
    let r := if (doneOf s (whoEngine e) (engJob start 2)).any fun d => d.refused.isSome then EngResult.of stKeyMismatch else st.result
    let s := modEngine e (fun g => { g with wb := g.wb.map fun x => if x.start = start then { x with result := r } else x }) s
    sendBg { who := whoEngine e, addr := (capAddr st.req.ga.val).toNat + 0x38, sent := f, after := none, job := engJob start 3, off := 0,
             what := .write ((leBytes 2 r.status.toNat ++ leBytes 2 r.out.length).map some) [] } (some (capKey st.req.ga.val)) true s

end Sys2Proof.Machine
end

