-- ==== Sys2Proof/Machine/HostData.lean ====
section
/-! DEFINITION. The rings and their slots (R427, R432), and what the requests of the host-link port, the busy responder and the sideband
port come to (R261, R439, R442, R518). -/
namespace Sys2Proof.Machine

/-! ## Rings (R427, R432) -/

/-- A ring changed. -/
def modRing (r : RingId) (f : Ring → Ring) (s : State) : State :=
  { s with link := { s.link with rings := s.link.rings.set r (f s.link.rings[r]) } }

/-- Whether a ring pair exists (R427). -/
def ringExists (s : State) (r : RingId) : Bool := r.val == 0 || (s.link.vfEnable && decide (r.val ≤ s.link.numVfs.toNat))

/-- RCTL.EN as the device uses it (R427). -/
def ringOn (s : State) (r : RingId) : Bool := ringExists s r && s.link.rings[r].en

/-- Slot k of ingress ring r (R432). -/
def ingressSlot (r : RingId) (k : Nat) : Nat := globalBase + 0x20000 * r.val + 0x800 * k
/-- Slot k of egress ring r (R432). -/
def egressSlot (r : RingId) (k : Nat) : Nat := globalBase + 0x800000 + 0x20000 * r.val + 0x800 * k
/-- The function of a ring (R427). -/
def ringFunction (r : RingId) : Nat := r.val + 1
/-- The busy template of a ring (R432). -/
def busyTemplate (r : RingId) : Nat := ctlBase + 0x504000 + 0x100 * r.val

/-! ## Places in the order of R261 -/

/-- The host-link port: its job 0 is the host's writes, job 1 + x the reads of egress channel x, and job 5 the host's reads. -/
def whoHost : Nat := 115
/-- The busy responder: its job 0 is the echo's reads, and job 1 the response's writes. -/
def whoBusy : Nat := 116
/-- The sideband port. -/
def whoSide : Nat := 117

/-- Bytes written into the global scratchpad by a requester of R261 that ignores frame keys, block by block, sent in fabric cycle f (R430,
R439, R518). -/
def bgWrite (who job a : Nat) (bs : List Byte) (f : Nat) (s : State) : State :=
  (blockParts a bs.length).foldl (fun s (x, n) =>
    sendBg { who := who, addr := x, sent := f, after := none, job := job, off := x - a, what := .write ((slice bs (x - a) n).map some) [] }
      none true s) s

/-- Bytes read from the global scratchpad by a requester of R261 that ignores frame keys: block k is sent in fabric cycle f + step · k, after
the stores of a core (R430, R439, R441, R442). -/
def bgFetch (who job a n f step : Nat) (after : Option (CoreId × Nat)) (s : State) : State :=
  (blockParts a n).zipIdx.foldl (fun s ((x, m), k) =>
    sendBg { who := who, addr := x, sent := f + step * k, after := after, job := job, off := x - a, what := .read m } none false s) s

/-! ## The busy responder (R439) -/

/-- The bytes of a busy response written into its egress slot. -/
def busyWrite (b : BusyRun) (f : Nat) (s : State) : State := bgWrite whoBusy 1 (egressSlot b.item.ring b.item.slot.toNat) b.body f s

/-- A request of the busy responder has come to something in fabric cycle f: once all bytes of the echo have come, the response is written
from the next fabric cycle on (R439). -/
def busyGot (f : Nat) (s : State) : State :=
  let s := dropDone whoBusy 1 s
  match s.link.busyRun with
  | none => dropDone whoBusy 0 s
  | some b =>
    let ds := doneOf s whoBusy 0
    if ds.isEmpty || decide (ds.length < (blockParts (ingressSlot b.item.ring b.item.slot.toNat) b.echo).length) then s
    else
      let b : BusyRun := { b with echo := 0, body := gathered ds b.echo ++ b.body }
      let s := dropDone whoBusy 0 s
      busyWrite b (f + 1) { s with link := { s.link with busyRun := some b } }

end Sys2Proof.Machine
end

