-- ==== Sys2Proof/Machine/JournalQueue.lean ====
section
/-! DEFINITION. The Wale journal's entries (R404, R405, R407) and what a commit does (R409, R410, R415, R531). -/
namespace Sys2Proof.Machine

/-- The journal changed. -/
def modJn (f : Journal → Journal) (s : State) : State := { s with jn := f s.jn }

/-! ## Entries (R404-R407) -/

/-- TYPE (R405). -/
def JKind.type : JKind → BitVec 8
  | .genesis _ => 1
  | .checkpoint _ => 2
  | .resume _ _ _ _ _ => 3
  | .mismatch _ => 4
  | .record t => t

/-- Whether an entry is a CHECKPOINT. -/
def JKind.isCk : JKind → Bool
  | .checkpoint _ => true
  | _ => false

/-- The bytes that an entry takes in the ring (R407). -/
def entrySize (ck : Bool) (len : Nat) : Nat := 64 * cdiv ((if ck then 192 else 96) + len) 64

/-- The size of an item. -/
def JItem.size (i : JItem) : Nat := entrySize i.kind.isCk i.len

/-- FLAGS (R404). -/
def JItem.flags (i : JItem) : Byte :=
  BitVec.ofNat 8 ((if i.pair ≠ 0xFF then 1 else 0) + (if i.lean then 2 else 0) +
    (if i.kind.isCk && decide (i.defer ≠ 0) then 4 else 0) + (if i.unsync then 8 else 0) + 16 * i.ferr.toNat)

/-- The header of an entry (R404). -/
def JItem.header (i : JItem) (seq : BitVec 64) : List Byte :=
  leBytes 8 seq.toNat ++ leBytes 12 i.tai.toNat ++ leBytes 8 i.cycle.toNat ++ [i.core, i.pair, i.kind.type, i.flags] ++
    leBytes 2 i.len ++ List.replicate 30 0

/-- An entry as of the current cycle, with the fields that it samples there (R410) and a reading of TAI. -/
def newItem (s : State) (tai : BitVec 96) (kind : JKind) (len : Nat) : JItem :=
  { kind := kind, tai := tai, cycle := BitVec.ofNat 64 s.now, core := 0xFF, pair := 0xFF, lean := s.lean,
    unsync := !s.pw.sync, cnum := 0, addr := 0, len := len, key := 0, after := none, payload := List.replicate len 0, ferr := 0, defer := 0,
    due := s.now / 2, wait := 0, mark := false, forced := false }

/-! ## The ring (R414, R415) -/

/-- R414: whether JRBASE and JRSIZE can hold a ring. -/
def ringValid (j : Journal) : Bool :=
  let b := j.rbase.toNat
  let n := j.rsize.toNat
  b % 65536 == 0 && n % 65536 == 0 && decide (0x100000 ≤ n) && decide (n ≤ 0x1000000000) && inAttached b n

/-- R415: events 323 and 324 follow the fill of the ring. -/
def ringLevels (s : State) : State :=
  let j := s.jn
  let s := setLine 323 (j.en && decide (j.thresh.toNat < j.prod - j.cons)) s.now s
  setLine 324 (j.en && decide (j.rsize.toNat < j.reserved - j.cons + 65536 + 4160)) s.now s

/-! ## Committing a record (R409, R410, R531) -/

/-- Commits accepted and not yet chained (R409). -/
def commitsOpen (j : Journal) : Nat :=
  j.accepted.length + j.queue.length + j.fetched.length + (if j.fetch.isSome then 1 else 0) +
    (match j.hash with
     | some h => (match h.item.kind with | .record _ => 1 | _ => 0)
     | none => 0)

/-- The status of a JCOMMIT, in the order of R531. -/
def commitStatus (j : Journal) (gb : Nat) : Nat :=
  let len := gb % 4096
  let type := gb / 65536 % 256
  if !j.run || j.fault then 2
  else if 4032 < len ∨ type < 0x10 ∨ gb ≠ len + type * 65536 then 4
  else if 64 ≤ commitsOpen j then 3
  else if !j.waiting.isEmpty || decide (j.rsize.toNat + j.cons < j.reserved + entrySize false len + 65536) then 1
  else 0

/-- JCOMMIT performed in the current cycle by a core, or for its pair, after stores: what gd receives (R409, R410). -/
def doJcommit (c : CoreId) (pair : Option PairId) (after : Option (CoreId × Nat)) (ga : TWord) (gb : Word) (s : State) : Word × State :=
  let st := commitStatus s.jn gb.toNat
  if st ≠ 0 then (BitVec.ofNat 128 (st * 2 ^ 64), s)
  else
    let len := gb.toNat % 4096
    let n := s.jn.cnum + 1
    let (tai, s) := taiRead s
    let i : JItem :=
      { newItem s tai (.record (BitVec.ofNat 8 (gb.toNat / 65536))) len with
        core := BitVec.ofNat 8 c.val, pair := match pair with | some p => BitVec.ofNat 8 p.val | none => 0xFF,
        cnum := n, addr := (capAddr ga.val).toNat, key := capKey ga.val, after := after, due := fcFrom (s.now + 3) }
    (BitVec.ofNat 128 n, ringLevels (modJn (fun j =>
      { j with cnum := n, reserved := j.reserved + i.size, accepted := j.accepted ++ [i] }) s))

/-- The flags of JCOMMIT (R409): Z from the status, N clear. -/
def commitFlags (v : Word) : BitVec 6 := flag fZ (v.toNat / 2 ^ 64 == 0)

end Sys2Proof.Machine
end

