-- ==== Sys2Proof/Machine/Sha.lean ====
section
/-! DEFINITION. The hash functions that R384, R385 and R412 name: SHA-256, SHA-384 and SHA-512, SHA3-256, and HMAC
over SHA-256 and SHA-384, on byte strings of any length. -/
namespace Sys2Proof.Machine

/-- A list cut into pieces of n bytes, at most `fuel` of them. -/
def chunks {α : Type} (n : Nat) : Nat → List α → List (List α)
  | 0, _ => []
  | fuel + 1, l => if l.isEmpty then [] else l.take n :: chunks n fuel (l.drop n)

/-- The bitwise exclusive or of two byte strings of one length. -/
def xorBytes (a b : List Byte) : List Byte := List.zipWith (fun x y => x ^^^ y) a b

/-! ## SHA-2 -/

/-- The 80 round constants of SHA-512; the first 64, cut to 32 bits, are those of SHA-256. -/
def shaK : Nat :=
  0x428a2f98d728ae227137449123ef65cdb5c0fbcfec4d3b2fe9b5dba58189dbbc3956c25bf348b53859f111f1b605d019923f82a4af194f9bab1c5ed5da6d8118d807aa98a303024212835b0145706fbe243185be4ee4b28c550c7dc3d5ffb4e272be5d74f27b896f80deb1fe3b1696b19bdc06a725c71235c19bf174cf692694e49b69c19ef14ad2efbe4786384f25e30fc19dc68b8cd5b5240ca1cc77ac9c652de92c6f592b02754a7484aa6ea6e4835cb0a9dcbd41fbd476f988da831153b5983e5152ee66dfaba831c66d2db43210b00327c898fb213fbf597fc7beef0ee4c6e00bf33da88fc2d5a79147930aa72506ca6351e003826f142929670a0e6e7027b70a8546d22ffc2e1b21385c26c9264d2c6dfc5ac42aed53380d139d95b3df650a73548baf63de766a0abb3c77b2a881c2c92e47edaee692722c851482353ba2bfe8a14cf10364a81a664bbc423001c24b8b70d0f89791c76c51a30654be30d192e819d6ef5218d69906245565a910f40e35855771202a106aa07032bbd1b819a4c116b8d2d0c81e376c085141ab532748774cdf8eeb9934b0bcb5e19b48a8391c0cb3c5c95a634ed8aa4ae3418acb5b9cca4f7763e373682e6ff3d6b2b8a3748f82ee5defb2fc78a5636f43172f6084c87814a1f0ab728cc702081a6439ec90befffa23631e28a4506cebde82bde9bef9a3f7b2c67915c67178f2e372532bca273eceea26619cd186b8c721c0c207eada7dd6cde0eb1ef57d4f7fee6ed17806f067aa72176fba0a637dc5a2c898a6113f9804bef90dae1b710b35131c471b28db77f523047d8432caab7b40c724933c9ebe0a15c9bebc431d67c49c100d4c4cc5d4becb3e42b6597f299cfc657e2a5fcb6fab3ad6faec6c44198c4a475817
/-- The initial value of SHA-512; cut to 32 bits a word, that of SHA-256. -/
def sha512H : Nat :=
  0x6a09e667f3bcc908bb67ae8584caa73b3c6ef372fe94f82ba54ff53a5f1d36f1510e527fade682d19b05688c2b3e6c1f1f83d9abfb41bd6b5be0cd19137e2179
/-- The initial value of SHA-384. -/
def sha384H : Nat :=
  0xcbbb9d5dc1059ed8629a292a367cd5079159015a3070dd17152fecd8f70e593967332667ffc00b318eb44a8768581511db0c2e0d64f98fa747b5481dbefa4fa4

/-- 64-bit word i of a literal of n words, most significant first, cut to its high w bits. -/
def litWord (v n i w : Nat) : Nat := v / 2 ^ (64 * (n - 1 - i)) % 2 ^ 64 / 2 ^ (64 - w)

/-- Rotation of a w-bit word to the right. -/
def rotR (w x n : Nat) : Nat := (x / 2 ^ n) ||| (x * 2 ^ (w - n) % 2 ^ w)

/-- A SHA-2 function: its word width, its number of rounds, and the amounts of its six rotations and two shifts. -/
structure Sha2 where
  w : Nat
  rounds : Nat
  bs0 : Nat × Nat × Nat
  bs1 : Nat × Nat × Nat
  ss0 : Nat × Nat × Nat
  ss1 : Nat × Nat × Nat

/-- SHA-256. -/
def sha256Fn : Sha2 :=
  { w := 32, rounds := 64, bs0 := (2, 13, 22), bs1 := (6, 11, 25), ss0 := (7, 18, 3), ss1 := (17, 19, 10) }
/-- SHA-512 and SHA-384. -/
def sha512Fn : Sha2 :=
  { w := 64, rounds := 80, bs0 := (28, 34, 39), bs1 := (14, 18, 41), ss0 := (1, 8, 7), ss1 := (19, 61, 6) }

/-- The exclusive or of three rotations. -/
def bigSig (w x : Nat) (r : Nat × Nat × Nat) : Nat := rotR w x r.1 ^^^ rotR w x r.2.1 ^^^ rotR w x r.2.2
/-- The exclusive or of two rotations and a shift. -/
def smallSig (w x : Nat) (r : Nat × Nat × Nat) : Nat := rotR w x r.1 ^^^ rotR w x r.2.1 ^^^ (x / 2 ^ r.2.2)

/-- The message schedule, newest word first, extended by k words. -/
def shaSchedule (f : Sha2) : Nat → List Nat → List Nat
  | 0, l => l
  | k + 1, l =>
    let x := smallSig f.w (l.getD 1 0) f.ss1 + l.getD 6 0 + smallSig f.w (l.getD 14 0) f.ss0 + l.getD 15 0
    shaSchedule f k (x % 2 ^ f.w :: l)

/-- One round over the eight working words with a constant and a schedule word. -/
def shaRound (f : Sha2) (v : List Nat) (kw : Nat) : List Nat :=
  match v with
  | [a, b, c, d, e, g, h, i] =>
    let t1 := i + bigSig f.w e f.bs1 + ((e &&& g) ^^^ ((2 ^ f.w - 1 - e) &&& h)) + kw
    let t2 := bigSig f.w a f.bs0 + ((a &&& b) ^^^ (a &&& c) ^^^ (b &&& c))
    [(t1 + t2) % 2 ^ f.w, a, b, c, (d + t1) % 2 ^ f.w, e, g, h]
  | l => l

/-- One block into the chaining value. -/
def shaBlock (f : Sha2) (h : List Nat) (blk : List Byte) : List Nat :=
  let first := (chunks (f.w / 8) 16 blk).map ofBe
  let ws := (shaSchedule f (f.rounds - 16) first.reverse).reverse
  let v := (ws.zipIdx).foldl (fun v (x, i) => shaRound f v (x + litWord shaK 80 i f.w)) h
  List.zipWith (fun a b => (a + b) % 2 ^ f.w) h v

/-- The message with its padding. -/
def shaPad (f : Sha2) (m : List Byte) : List Byte :=
  let blk := 2 * f.w
  let len := f.w / 4
  m ++ [0x80] ++ List.replicate ((blk - (m.length + 1 + len) % blk) % blk) 0 ++ beBytes len (8 * m.length)

/-- A SHA-2 hash from an initial value of eight words. -/
def sha2 (f : Sha2) (iv : Nat) (m : List Byte) : List Byte :=
  let p := shaPad f m
  let h0 := (List.range 8).map fun i => litWord iv 8 i f.w
  let h := (chunks (2 * f.w) p.length p).foldl (shaBlock f) h0
  (h.map (beBytes (f.w / 8))).flatten

/-- SHA-256. -/
def sha256Bytes (m : List Byte) : List Byte := sha2 sha256Fn sha512H m
/-- SHA-512. -/
def sha512Bytes (m : List Byte) : List Byte := sha2 sha512Fn sha512H m
/-- SHA-384. -/
def sha384Bytes (m : List Byte) : List Byte := (sha2 sha512Fn sha384H m).take 48

/-! ## HMAC -/

/-- HMAC over a hash with a block size. -/
def hmacBytes (hash : List Byte → List Byte) (blk : Nat) (key m : List Byte) : List Byte :=
  let k := padTo blk (if key.length > blk then hash key else key)
  hash ((k.map (· ^^^ 0x5C)) ++ hash ((k.map (· ^^^ 0x36)) ++ m))

/-! ## SHA3-256 -/

/-- The 24 round constants of Keccak-f[1600]. -/
def keccakRC : Nat :=
  0x00000000000000010000000000008082800000000000808a8000000080008000000000000000808b000000008000000180000000800080818000000000008009000000000000008a00000000000000880000000080008009000000008000000a000000008000808b800000000000008b8000000000008089800000000000800380000000000080028000000000000080000000000000800a800000008000000a8000000080008081800000000000808000000000800000018000000080008008

/-- The rotation offset of lane x + 5y. -/
def keccakOff : List Nat := [0, 1, 62, 28, 27, 36, 44, 6, 55, 20, 3, 10, 43, 25, 39, 41, 45, 15, 21, 8, 18, 2, 61, 56, 14]

/-- Rotation of a 64-bit lane to the left. -/
def rotL64 (x n : Nat) : Nat := rotR 64 x ((64 - n % 64) % 64) % 2 ^ 64

/-- One round on the 25 lanes, lane x + 5y at that place. -/
def keccakRound (a : List Nat) (rc : Nat) : List Nat :=
  let g (l : List Nat) (x y : Nat) : Nat := l.getD (x % 5 + 5 * (y % 5)) 0
  let c := (List.range 5).map fun x => g a x 0 ^^^ g a x 1 ^^^ g a x 2 ^^^ g a x 3 ^^^ g a x 4
  let d := (List.range 5).map fun x => c.getD ((x + 4) % 5) 0 ^^^ rotL64 (c.getD ((x + 1) % 5) 0) 1
  let t := (List.range 25).map fun i => rotL64 (a.getD i 0 ^^^ d.getD (i % 5) 0) (keccakOff.getD i 0)
  let b := (List.range 25).map fun i => g t (i % 5 + 3 * (i / 5)) (i % 5)
  let r := (List.range 25).map fun i =>
    g b (i % 5) (i / 5) ^^^ ((2 ^ 64 - 1 - g b (i % 5 + 1) (i / 5)) &&& g b (i % 5 + 2) (i / 5))
  match r with
  | x :: l => (x ^^^ rc) :: l
  | [] => []

/-- Keccak-f[1600]. -/
def keccakF (a : List Nat) : List Nat := (List.range 24).foldl (fun a i => keccakRound a (litWord keccakRC 24 i 64)) a

/-- One block of the rate, 136 bytes, into the state. -/
def keccakAbsorb (a : List Nat) (blk : List Byte) : List Nat :=
  let ws := (chunks 8 17 blk).map ofLe
  keccakF ((List.range 25).map fun i => a.getD i 0 ^^^ ws.getD i 0)

/-- SHA3-256. -/
def sha3Bytes (m : List Byte) : List Byte :=
  let z := 135 - m.length % 136
  let p := m ++ (if z = 0 then [0x86] else [0x06] ++ List.replicate (z - 1) 0 ++ [0x80])
  (((chunks 136 p.length p).foldl keccakAbsorb (List.replicate 25 0)).map (leBytes 8)).flatten.take 32

end Sys2Proof.Machine
end

