-- ==== Sys2Proof/Machine/Manifest.lean ====
section
/-! DEFINITION. The manifest of the XOP loader as it is read (R372, R376), and the checks that the loader makes before it submits the
signature (R371, R373). -/
namespace Sys2Proof.Machine

/-! ## The manifest (R372) -/

/-- The little-endian field of n bytes at an offset of a manifest. -/
def manField (m : List Byte) (o n : Nat) : Nat := ofLe (slice m o n)
/-- NROUT. -/
def manRoutines (m : List Byte) : Nat := manField m 6 2
/-- NWORDS. -/
def manWords (m : List Byte) : Nat := manField m 8 2
/-- The signature, r ‖ s. -/
def manSig (m : List Byte) : List Byte := m.drop (m.length - 96)
/-- PUBKEY, X ‖ Y. -/
def manKey (m : List Byte) : List Byte := slice m 0x10 96
/-- What is signed. -/
def manBody (m : List Byte) : List Byte := m.take (m.length - 96)

/-- A routine record. -/
structure Routine where
  num : Nat
  flags : Nat
  first : Nat
  count : Nat
  deriving DecidableEq, Repr

/-- Record i of a manifest. -/
def manRoutine (m : List Byte) (i : Nat) : Routine :=
  let o := 0x70 + 8 * i
  { num := manField m o 1, flags := manField m (o + 1) 1, first := manField m (o + 2) 2, count := manField m (o + 4) 2 }

/-- The routine records of a manifest. -/
def manList (m : List Byte) : List Routine := (List.range (manRoutines m)).map (manRoutine m)

/-- Word i of the image. -/
def manWord (m : List Byte) (i : Nat) : Nat := manField m (0x70 + 8 * manRoutines m + 4 * i) 4

/-! ## The checks (R373, R374) -/

/-- Check 0x02 of R373. -/
def manShape (m : List Byte) : Bool :=
  manField m 0 4 == 0x4D504F58 && manField m 4 2 == 1 && decide (1 ≤ manRoutines m) && decide (manRoutines m ≤ 64) &&
  decide (1 ≤ manWords m) && decide (manWords m ≤ 3072) && manField m 0xC 4 == 0 &&
  m.length == 0x70 + 8 * manRoutines m + 4 * manWords m + 96 && (manList m).all fun r => decide (r.flags < 2)

/-- Check 0x01 of R373. -/
def manSource (v : TWord) (n : Nat) : Bool :=
  let a := (capAddr v.val).toNat
  v.tag && !isSealed v && hasPerm v.val permLD && inBounds v.val a n && inGlobal a n

/-- KEYH as the 32 bytes of a digest (R371). -/
def keyHash (l : Loader) : List Byte := (l.keyh.toList.map fun x => leBytes 8 x.toNat).flatten

/-- The loader's registers changed. -/
def modLoader (f : Loader → Loader) (s : State) : State := { s with cfg := { s.cfg with loader := f s.cfg.loader } }

/-- The load ends with a RESULT (R373). -/
def endLoad (r : BitVec 8) (s : State) : State := modLoader (fun l => { l with busy := false, result := r, job := none }) s

/-- The fabric cycles of the loader's two hashes (R376). -/
def loadCount (n : Nat) : Nat := 40 * cdiv (96 + 9) 64 + 80 * cdiv (n - 96 + 17) 128

/-- The loader's place in the order of R261. -/
def whoLoader : Nat := 114

/-- The manifest of a load that started in fabric cycle f0 is read: block k is sent in F0 + 4k (R376; log entry 99). -/
def sendManifest (a n f0 : Nat) (s : State) : State :=
  (blockParts a n).zipIdx.foldl (fun s ((x, m), k) =>
    sendBg { who := whoLoader, addr := x, sent := f0 + 4 * k, after := none, job := 0, off := x - a, what := .read m } none false s) s

/-- The checks before the signature, and the request to the curve engine once both hashes are done (R373, R376). -/
def checkManifest (m : List Byte) (start f : Nat) (s : State) : State :=
  let l := s.cfg.loader
  if !manShape m then endLoad 2 s
  else if sha256Bytes (manKey m) ≠ keyHash l then endLoad 3 s
  else if !enginePresent s l.eng.toNat then endLoad 4 s
  else
    let r : EngReq :=
      { ga := TWord.null, gb := TWord.null, source := .loader (sha384Bytes (manBody m)) (manSig m) (manKey m),
        entry := max (start + 2 + loadCount m.length) (f + 1), after := none, marked := false }
    let s := modLoader (fun l => { l with job := l.job.map fun j => { j with manifest := m, stage := 0 } }) s
    modEngine ⟨l.eng.toNat, by omega⟩ (fun g => { g with accepted := g.accepted ++ [r] }) s

/-- A background request of the loader has come to something in fabric cycle f: once the whole manifest has come, it is checked. -/
def loaderGot (f : Nat) (s : State) : State :=
  match s.cfg.loader.job with
  | none => s
  | some j =>
    let ds := doneOf s whoLoader 0
    if j.stage ≠ 3 || decide (ds.length < blocksOf j.addr j.len) then s
    else checkManifest (gathered ds j.len) j.start f (dropDone whoLoader 0 s)

/-- GO written with 1 in the current cycle (R371, R373, R376). -/
def loaderGo (s : State) : State :=
  let l := s.cfg.loader
  if l.busy then s
  else
    let s := modLoader (fun l => { l with busy := true }) s
    let n := l.len.toNat
    if !manSource l.src n then endLoad 1 s
    else if n = 0 then endLoad 2 s
    else
      let a := (capAddr l.src.val).toNat
      let f0 := fcFrom (s.now + 1)
      let job : LoadJob := { manifest := [], stage := 3, addr := a, len := n, start := f0, verdict := none, nextWord := [], due := 0 }
      sendManifest a n f0 (modLoader (fun l => { l with job := some job }) s)

end Sys2Proof.Machine
end

