-- ==== Sys2Proof/Machine/MoverWork.lean ====
section
/-! DEFINITION. What the mover channels hold and check: submission (R449, R453), the descriptor and its checks (R452, R455), and the
bursts with their keys and tags (R456). -/
namespace Sys2Proof.Machine

/-- Channel ch changed. -/
def modCh (ch : ChannelId) (f : Channel → Channel) (s : State) : State :=
  { s with mov := { s.mov with ch := s.mov.ch.set ch (f s.mov.ch[ch]) } }

/-! ## STATUS (R457) -/

/-- OK. -/
def mvOk : BitVec 16 := 0
/-- BOUNDS. -/
def mvBounds : BitVec 16 := 1
/-- PERM. -/
def mvPerm : BitVec 16 := 2
/-- KEY_MISMATCH. -/
def mvKey : BitVec 16 := 3
/-- ECC. -/
def mvEcc : BitVec 16 := 4
/-- HOST_ERROR. -/
def mvHost : BitVec 16 := 5
/-- BAD_DESC. -/
def mvBadDesc : BitVec 16 := 6
/-- RESET. -/
def mvReset : BitVec 16 := 7

/-! ## Submission (R453) -/

/-- The fabric cycle in which the next descriptor of a channel can start, none while it has none (R454). -/
def channelStart (x : Channel) : Option Nat :=
  if x.run.isSome then none
  else match x.chain, x.queue with
    | some _, _ => some x.free
    | none, r :: _ => some (max x.free r.entry)
    | none, [] => none

/-- The queue entries occupied in fabric cycle f. -/
def channelOccupied (x : Channel) (f : Nat) : Nat :=
  x.queue.length - match channelStart x with
    | some n => if n ≤ f ∧ x.chain.isNone then 1 else 0
    | none => 0

/-- MSUB performed as if issued in cycle t, after the stores of a core: its result (R453; log entry 24 for the start of an idle
channel). -/
def submitMover (t : Nat) (ch : ChannelId) (ga : TWord) (base : Bool) (after : Option (CoreId × Nat)) (s : State) : Word × State :=
  let x := s.mov.ch[ch]
  if !x.en || (x.baseOnly && !base) then (2, s)
  else if 4 ≤ channelOccupied x (t / 2) then (1, s)
  else (0, modCh ch (fun x => { x with queue := x.queue ++ [{ ga := ga, base := base, entry := fcFrom (t + 3), after := after }] }) s)

/-- R453: the checks of a descriptor capability at an offset from its ADDR, as the code of the first that fails. -/
def descFault (ga : TWord) (off : Nat) : Option (BitVec 8) :=
  let ea := (capAddr ga.val).toNat + off
  if !ga.tag then some cTag
  else if isSealed ga then some cSeal
  else if !(hasPerm ga.val permLD && hasPerm ga.val permST && hasPerm ga.val permMOVER) then some cPerm
  else if ea % 64 ≠ 0 then some cAlign
  else if inBounds ga.val ea 64 && inGlobal ea 64 then none
  else some cBounds

/-! ## The descriptor (R452, R455) -/

/-- Where a core's window or data-port window holds an address (R244, R471). -/
def isDpWindow (a n : Nat) : Bool := within a n dpwBase 0x30000

/-- Whether n bytes from a on lie within one region of a side's kind: a window of the data port counts with the per-core
windows and is read only by base level (R241, R244, R455, R471). -/
def sideRegion (kind a n : Nat) (store base : Bool) : Bool :=
  match kind with
  | 0 => inGlobal a n
  | 1 => inAttached a n
  | _ =>
    let o := (a - 0x100000000) % 0x100000
    (within a n 0x100000000 0x3000000 &&
      (decide (o + n ≤ 0x80000) || (decide (0x80000 ≤ o) && decide (o + n ≤ 0xA0000)) || (decide (0xA0000 ≤ o) && decide (o + n ≤ 0xA4000)))) ||
    (isDpWindow a n && decide (a % 4096 + n ≤ 4096) && !store && base)

/-- Whether a side passes the BOUNDS check of R455. -/
def sideBounds (kind : Nat) (v : TWord) (n : Nat) (store base : Bool) : Bool :=
  kind == 2 ||
  (v.tag && !isSealed v && hasPerm v.val (if store then permST else permLD) && inBounds v.val (capAddr v.val).toNat n &&
   sideRegion kind (capAddr v.val).toNat n store base)

/-- The descriptor that 64 bytes hold, with the words of it that are tagged, by their offsets (R452). -/
def parseDescriptor (r : MovReq) (off start : Nat) (b : List Byte) (tags : List Nat) : MovRun :=
  let n (i k : Nat) : Nat := ofLe (slice b i k)
  let cap (i : Nat) : TWord := { val := BitVec.ofNat 128 (n i 16), tag := tags.contains i }
  let ctl := n 0 4
  { req := r, off := off, start := start, known := true, cur := none, asked := false, srck := field ctl 0 4, dstk := field ctl 4 4,
    burst := field ctl 8 3, tags := ctl.testBit 11, ev := ctl.testBit 12, len := n 4 4, haddr := n 8 8, src := cap 16, dst := cap 32,
    next := n 48 4, moved := 0, status := mvOk }

/-- A descriptor that has started and not been read. -/
def unreadDescriptor (r : MovReq) (off start : Nat) : MovRun := { parseDescriptor r off start [] [] with known := false }

/-- R455: the status that the checks before the first byte give, over the 64 bytes of the descriptor. -/
def checkMover (x : Channel) (m : MovRun) (b : List Byte) : BitVec 16 :=
  let n (i k : Nat) : Nat := ofLe (slice b i k)
  let base := m.req.base
  let hosts := (if m.srck = 2 then 1 else 0) + (if m.dstk = 2 then 1 else 0)
  if n 0 4 / 2 ^ 13 ≠ 0 ∨ n 52 4 ≠ 0 ∨ n 58 2 ≠ 0 ∨ 3 < m.srck ∨ 3 < m.dstk ∨ m.burst = 7 ∨ m.len = 0 ∨ 16777216 < m.len ∨
      hosts = 2 ∨ (hosts = 0 ∧ m.haddr ≠ 0) ∨ (m.srck = 2 ∧ n 16 16 ≠ 0) ∨ (m.dstk = 2 ∧ n 32 16 ≠ 0) then mvBadDesc
  else if !sideBounds m.srck m.src m.len false base || !sideBounds m.dstk m.dst m.len true base then mvBounds
  else if ((m.srck = 3 ∨ m.dstk = 3) ∧ !base) ∨ (hosts ≠ 0 ∧ !x.host) then mvPerm
  else if m.tags ∧ (hosts ≠ 0 ∨ !hasPerm m.src.val permLDC ∨ !hasPerm m.dst.val permSTC) then mvPerm
  else mvOk

/-! ## Bursts (R456) -/

/-- The address of a side's next byte. -/
def sideAddr (kind : Nat) (v : TWord) (haddr moved : Nat) : Nat := (if kind = 2 then haddr else (capAddr v.val).toNat) + moved

/-- The bytes of the next burst: up to the next multiple of BURST in the source address, for a host-bound burst up to Max Payload Size,
and for one from the host up to Max Read Request Size (R456; log entry 23). -/
def burstBytes (m : MovRun) : Nat :=
  let a := sideAddr m.srck m.src m.haddr m.moved
  let b := 64 * 2 ^ m.burst
  let n := min (b - a % b) (m.len - m.moved)
  if m.dstk = 2 then min n (128 * 2 ^ (Config.payloadCode % 3))
  else if m.srck = 2 then min n (128 * 2 ^ (Config.readRequestCode % 6)) else n

/-- The first byte that the key rule refuses on a side (R285, R456). -/
def sideKey (s : State) (kind : Nat) (v : TWord) (store : Bool) (a n : Nat) : Option Nat :=
  if kind ≤ 1 then keyRefusal s (capKey v.val) store a n else none

/-- Whether a window address belongs to an absent core (R244). -/
def absentWindow (s : State) (a : Nat) : Bool := touchesWindow a 1 && decide (coreCount s.grade ≤ (a - 0x100000000) / 0x100000)

/-- The words of a burst whose tags are carried: the words of the destination that take a set tag (R456). `tagged` are the words of the
source that are tagged. -/
def carriedTags (m : MovRun) (b : MovBurst) (bs : List Byte) (tagged : List Nat) : List Nat :=
  if !m.tags || b.src % 16 ≠ b.dst % 16 then []
  else
    let first := (b.dst + 15) / 16 * 16
    let words := (List.range ((b.dst + b.len) / 16 - first / 16)).map fun i => first + 16 * i
    words.filter fun w =>
      let lds := touchesWindow w 16 && decide ((w - 0x100000000) % 0x100000 < 0x80000)
      tagged.contains (b.src + (w - b.dst)) && (lds || hasPerm (BitVec.ofNat 128 (ofLe (slice bs (w - b.dst) 16))) permGLOBAL)

/-- The descriptor in progress on a channel changed. -/
def modRun (ch : ChannelId) (f : MovRun → MovRun) (s : State) : State := modCh ch (fun x => { x with run := x.run.map f }) s

/-- The bytes of STATUS and MOVED as one write at offset 0x38 of a descriptor (R452, R457). -/
def statusImage (moved : Nat) (st : BitVec 16) : List (Option Byte) :=
  (leBytes 2 st.toNat).map some ++ [none, none] ++ (leBytes 4 moved).map some

/-- DONE and LAST take a completion (R450, R458). -/
def countDone (ch : ChannelId) (st : BitVec 16) (s : State) : State := modCh ch (fun x => { x with done := x.done + 1, last := st }) s

/-- The descriptor ends with a status. -/
def stopMover (ch : ChannelId) (st : BitVec 16) (s : State) : State := modRun ch (fun m => { m with status := st, cur := none }) s

end Sys2Proof.Machine
end

