-- ==== Sys2Proof/Machine/Background.lean ====
section
/-! DEFINITION. What the banks and the fabric ports perform: stores and block writes (R39, R267, R351), the background requests and their
arbitration (R253, R257, R261, R263), and what the movers do with the bytes that come (R456). -/
namespace Sys2Proof.Machine

/-! ## Writes performed (R39, R40, R267, R286) -/

/-- Whether a store through a window is ignored: of an absent core, of the XOP area, or of the patch area once the
configuration lock is set (R244, R351). -/
def windowIgnored (s : State) (a : Nat) : Bool :=
  absentWindow s a ||
  (touchesWindow a 1 && decide (0xA0000 ≤ a % 0x100000) && (decide (0xA1000 ≤ a % 0x100000) || s.cfg.lock))

/-- A store performed in the current cycle (R39, R267, R286). -/
def performStore (a : Nat) (bs : List Byte) (tag : Option Bool) (s : State) : State :=
  if windowIgnored s a then s
  else
    let s := partialEcc a bs.length s
    let s := match tag with
      | some t => tagSet (putBytes s a bs) a t
      | none => storeBytes s a bs
    markFrames s a bs.length true

/-- One word of a block written: in full, or the bytes that are present (R40, R218, R267). -/
def blockWord (a : Nat) (bs : List (Option Byte)) (s : State) : State :=
  if bs.all Option.isSome then storeBytes s a (bs.map fun b => b.getD 0)
  else if bs.any Option.isSome then
    let s := match eccHit s a bs.length with | some w => reportedEcc w s | none => s
    storeMasked s a bs
  else s

/-- Bytes written where they are present, word by word, each word of the width of its error-correcting code (R259, R265, R401). -/
def performBlock (a : Nat) (bs : List (Option Byte)) (s : State) : State :=
  if windowIgnored s a then s
  else
    let z := eccSize a
    let lead := a % z
    let img := List.replicate lead none ++ bs
    let img := img ++ List.replicate (z * cdiv img.length z - img.length) none
    let s := (List.range (img.length / z)).foldl (fun s i => blockWord (a - lead + z * i) ((img.drop (z * i)).take z) s) s
    if bs.any Option.isSome then markFrames s a bs.length true else s

/-! ## Background requests performed -/

/-- The tagged words among those that n bytes from a on touch. -/
def taggedWords (s : State) (a n : Nat) : List Nat :=
  if n = 0 then []
  else ((List.range ((a + n - 1) / 16 - a / 16 + 1)).map fun i => wordOf a + 16 * i).filter fun w => tagGet s w

/-- A background read of n bytes performed: an uncorrectable error is reported, and a single-bit error corrected in what it brings (R266,
R269, R286). The window of a data port shows its buffer as it stands (R471), and that of an absent core reads 0 (R244). -/
def bgRead (a n : Nat) (s : State) : List Byte × List Nat × Option Nat × State :=
  if isDpWindow a n then
    (match allCores[(a - dpwBase) / 4096]? with
      | some c => slice (s.core c).dp.buf (a % 4096) n
      | none => List.replicate n 0, [], none, s)
  else if absentWindow s a then (List.replicate n 0, [], none, s)
  else
    let bad := eccHit s a n
    let s := softRead a n s
    let s := match bad with | some w => reportedEcc w s | none => s
    (s.bytes a n, taggedWords s a n, bad, markFrames s a n false)

/-- A background request performed in the current cycle, with what came of it. -/
def performBg (r : BgReq) (s : State) : State :=
  match r.what with
  | .read n =>
    let (bs, tags, bad, s) := bgRead r.addr n s
    { s with bgDone := s.bgDone ++ [{ who := r.who, job := r.job, off := r.off, bytes := bs, tags := tags, bad := bad, refused := none }] }
  | .write bs tags =>
    let s := tags.foldl (fun s w => tagSet s w true) (performBlock r.addr bs s)
    { s with bgDone := s.bgDone ++ [{ who := r.who, job := r.job, off := r.off, bytes := [], tags := [], bad := none, refused := none }] }

/-! ## The movers' bursts (R456) -/

/-- The bytes of a burst put where the destination is, once all of them have come: requests to banks and ports, sent in the next fabric
cycle, or what the attached-memory domain or the host-link domain takes at once. -/
def moverPut (ch : ChannelId) (m : MovRun) (b : MovBurst) (bs : List Byte) (tagged : List Nat) (f : Nat) (s : State) : State :=
  let moved (s : State) : State := modRun ch (fun r => { r with moved := r.moved + b.len, cur := none }) s
  let tags := carriedTags m b bs tagged
  if m.dstk = 2 then moved (hostSend (.write s.mov.ch[ch].func.toNat b.dst bs) s)
  else if m.dstk = 1 then
    match attachedBad s true b.dst b.len with
    | some w => stopMover ch mvEcc (stackError w s)
    | none => moved (tags.foldl (fun s w => tagSet s w true) (markFrames (storeBytes s b.dst bs) b.dst b.len true))
  else
    let parts := blockParts b.dst b.len
    let s := modRun ch (fun r => { r with cur := some { b with parts := parts.length, writing := true } }) s
    parts.foldl (fun s (x, n) =>
      sendBg { who := ch.val, addr := x, sent := f + 1, after := none, job := 2, off := x - b.dst,
               what := .write ((slice bs (x - b.dst) n).map some) (tags.filter fun w => decide (x ≤ w) && decide (w < x + n)) } none true s) s

/-- The descriptor of channel ch has come: it is checked, and an uncorrectable error in it gives ECC (R455, R457). -/
def gotMoverDesc (ch : ChannelId) (m : MovRun) (d : BgDone) (s : State) : State :=
  let a := (capAddr m.req.ga.val).toNat + m.off
  let x := parseDescriptor m.req m.off m.start d.bytes (d.tags.map fun w => w - a)
  let st := if d.bad.isSome then mvEcc else checkMover s.mov.ch[ch] x d.bytes
  dropDone ch.val 0 (modRun ch (fun _ => { x with status := if m.status = mvOk then st else m.status }) s)

/-- STATUS and MOVED of a descriptor that was reset before its start have been performed in fabric cycle f (R451, R458). -/
def resetDone (ch : ChannelId) (f : Nat) (s : State) : State :=
  if (doneOf s ch.val 3).isEmpty then s
  else countDone ch mvReset (raise (evNo (224 + ch.val)) (2 * f) (dropDone ch.val 3 s))

/-- A background request of channel ch has come to something in fabric cycle f (R451, R456, R457). -/
def moverGot (ch : ChannelId) (f : Nat) (s : State) : State :=
  let s := resetDone ch f s
  match s.mov.ch[ch].run with
  | none => s
  | some m =>
    if !m.known then
      match doneOf s ch.val 0 with
      | d :: _ => gotMoverDesc ch m d s
      | [] => s
    else
      match m.cur with
      | none => s
      | some b =>
        let job := if b.writing then 2 else 1
        let ds := doneOf s ch.val job
        if ds.length < b.parts then s
        else
          let s := dropDone ch.val job s
          if b.writing then modRun ch (fun r => { r with moved := r.moved + b.len, cur := none }) s
          else if ds.any fun d => d.bad.isSome then stopMover ch mvEcc s
          else moverPut ch m b (gathered ds b.len) (ds.flatMap fun d => d.tags) f s

/-- What a requester does with what came of one of its requests in fabric cycle f. -/
def bgGot (who f : Nat) (s : State) : State :=
  if who < 64 then moverGot ⟨who % 64, Nat.mod_lt _ (by decide)⟩ f s
  else if who < 113 then engineGot ⟨(who - 64) % 49, Nat.mod_lt _ (by decide)⟩ f s
  else if who = whoLoader then loaderGot f s
  else if who = whoHost then dropDone whoHost 0 s
  else if who = whoBusy then busyGot f s
  else if who = whoSide then dropDone whoSide 0 s
  else s

/-! ## Arbitration (R261, R263) -/

/-- The bank, or the fabric port of an LDS or LIS, that serves an address, numbered as the scrubbers are; none where a request meets no
other. -/
def bgPort (a : Nat) : Option Nat :=
  if inGlobal a 1 then some ((a - globalBase) / 64 % 48)
  else if touchesWindow a 1 then
    some ((if a % 0x100000 < 0x80000 then 48 else 96) + (a - 0x100000000) / 0x100000)
  else none

/-- Whether a store that core c issued up to a place in the order of issue is still to be performed (R411, R454, R528). -/
def storesBefore (s : State) (c : CoreId) (n : Nat) : Bool :=
  ((s.core c).ms.freqs.any fun r => decide (r.seq ≤ n) && (match r.kind with | .store _ _ => true | .blockWrite _ => true | _ => false)) ||
  ((s.core c).ms.vq.any fun e => e.isMem && e.global && decide (e.seq ≤ n)) ||
  (s.timed.any fun x => x.core == c && match x.what with | .vblock e _ => decide (e.seq ≤ n) | _ => false)

/-- Whether a request is pending in fabric cycle f. -/
def bgPending (s : State) (f : Nat) (r : BgReq) : Bool :=
  decide (r.sent ≤ f) && match r.after with | some (c, n) => !storesBefore s c n | none => true

/-- The places from the rotating pointer of fabric cycle f to a requester (R261). The pointer stands at place f mod 118 (log entry 101). -/
def bgPlace (f who : Nat) : Nat := (who + 118 - f % 118) % 118

/-- The request that comes first at or after the rotating pointer; of one requester, the oldest. -/
def bgFirst (f : Nat) : List BgReq → Option BgReq
  | [] => none
  | r :: l =>
    match bgFirst f l with
    | some x => if bgPlace f x.who < bgPlace f r.who then some x else some r
    | none => some r

/-- The rows of a scrubber (R262). -/
def scrubRows (u : ScrubberId) : Nat := if u.val < 48 then 16384 else if u.val < 96 then 8192 else 2048

/-- Whether the memory of a scrubber is present (R2). -/
def scrubPresent (s : State) (u : ScrubberId) : Bool := decide (u.val < 48) || decide ((u.val - 48) % 48 < coreCount s.grade)

/-- The address of a row of a scrubber (R250, R262). -/
def scrubAddr (u : ScrubberId) (row : Nat) : Nat :=
  if u.val < 48 then globalBase + 64 * (48 * row + u.val)
  else if u.val < 96 then ldsBase ⟨(u.val - 48) % 48, Nat.mod_lt _ (by decide)⟩ + 64 * row
  else lisBase ⟨(u.val - 96) % 48, Nat.mod_lt _ (by decide)⟩ + 64 * row

/-- The fabric cycles between rows made due (R264). -/
def scrubInterval (s : State) : Nat := max 1 s.slath.interval.toNat

/-- The oldest row due of a scrubber is scrubbed: each word with a single-bit error is counted and corrected in memory, and each with an
uncorrectable error is reported (R262, R266, R269). -/
def scrubRow (u : ScrubberId) (s : State) : State :=
  let x := s.slath.units[u]
  let a := scrubAddr u x.row
  let y : Scrubber :=
    { row := (x.row + 1) % scrubRows u, dueRows := x.dueRows - 1, since := x.since + scrubInterval s,
      starved := x.starved && decide (1 < x.dueRows) }
  let s := { s with slath := { s.slath with units := s.slath.units.set u y } }
  let s := softRead a 64 s
  let s := { s with eccSoft := s.eccSoft.filter fun w => !(decide (a ≤ w) && decide (w < a + 64)) }
  (s.eccBad.filter fun w => decide (a ≤ w) && decide (w < a + 64)).foldl (fun s w => reportedEcc w s) s

/-- Whether a scrubber takes the phase B of fabric cycle f before any other requester (R263). -/
def scrubClaims (s : State) (f p : Nat) : Bool :=
  f % 1024 == 1023 && (match s.slath.units[p]? with | some x => x.starved && decide (0 < x.dueRows) | none => false)

/-- A bank or port marked as having made its grant in fabric cycle f. -/
def usePhase (f p : Nat) (s : State) : State :=
  { s with bgUsed := if s.bgUsed.1 = f then (f, p :: s.bgUsed.2) else (f, [p]) }

/-- Whether a bank or port has made its grant in fabric cycle f. -/
def phaseUsed (s : State) (f p : Nat) : Bool := s.bgUsed.1 == f && s.bgUsed.2.contains p

/-- One request granted and performed. -/
def grantBg (f : Nat) (r : BgReq) (s : State) : State :=
  bgGot r.who f (performBg r { s with bg := s.bg.erase r })

/-- The grant of one bank or port in fabric cycle f (R261, R263). -/
def grantPort (f p : Nat) (s : State) : State :=
  if phaseUsed s f p then s
  else if scrubClaims s f p then
    if h : p < 144 then usePhase f p (scrubRow ⟨p, h⟩ s) else s
  else
    match bgFirst f (s.bg.filter fun r => bgPort r.addr == some p && bgPending s f r) with
    | some r => usePhase f p (grantBg f r s)
    | none => s

/-- The grants of the phase B of fabric cycle f: one at each bank and port that has a request pending, in ascending order; a request that
meets no other is performed too (R253, R257, R261). -/
def grantAll (f : Nat) (s : State) : State :=
  let free := s.bg.filter fun r => bgPort r.addr == none && bgPending s f r
  let s := free.foldl (fun s r => grantBg f r s) s
  let ports := s.bg.filterMap fun r => bgPort r.addr
  let s := (ports.foldl (fun l p => insertNat p l) []).foldl (fun s p => grantPort f p s) s
  if s.bg.isEmpty then s else schedule 0 (2 * f + 3) 2 .grant s

/-- A background request sent in cycle x: one that the key rule refuses, or that follows one refused for the same item, comes to that;
one whose key byte in the master table is uncorrectable is reported and comes to that (R269; log entry 104); any other is pending from
its fabric cycle on (R285, R411, R456, R528). -/
def postBg (x : Nat) (r : BgReq) (key : Option (BitVec 4)) (store : Bool) (s : State) : State :=
  let f := max r.sent (x / 2)
  let n := match r.what with | .read n => n | .write bs _ => bs.length
  let earlier := ((doneOf s r.who r.job).find? fun d => d.refused.isSome).bind fun d => d.refused
  let refused := match earlier, key with
    | some p, _ => some p
    | none, some k => keyRefusal s k store r.addr n
    | none, none => none
  let unread := keyByteBad s 48 (key.getD 0) r.addr n
  let s := softKeys 48 (key.getD 0) r.addr n s
  let ends (bad refused : Option Nat) (s : State) : State :=
    bgGot r.who f { s with bgDone := s.bgDone ++ [{ who := r.who, job := r.job, off := r.off, bytes := [], tags := [], bad := bad, refused := refused }] }
  match unread, refused with
  | some p, _ => ends (some p) none (reportedEcc p s)
  | none, some p => ends none (some p) s
  | none, none =>
    let s := { s with bg := s.bg ++ [{ r with sent := f }] }
    if s.timed.any fun y => y.what == .grant then s else schedule 0 (2 * f + 1) 2 .grant s

/-- Whether a requester has a request that is sent or to be sent. -/
def bgBusy (s : State) (who : Nat) : Bool :=
  (s.bg.any fun r => r.who == who) || s.timed.any fun x => match x.what with | .send r _ _ => r.who == who | _ => false

end Sys2Proof.Machine
end

