-- ==== Sys2Proof/Machine/Pins.lean ====
section
/-! DEFINITION. The GPIO pins: what the device drives, what the synchroniser gives, and the lines of events 496 to 511 (R333, R513, R514). -/
namespace Sys2Proof.Machine

/-- The sideband controllers changed. -/
def modSb (f : Sideband → Sideband) (s : State) : State := { s with sb := f s.sb }

/-- Whether the line of a GPIO pin is high, under POL and OE as they are at the pin (R514). -/
def gpioActive (b : Sideband) (n : Nat) : Bool := !b.pinOe.getLsbD n && (b.gpioPin.getLsbD n != b.pinPol.getLsbD n)

/-- The lines of every GPIO pin, as of cycle r (R514). -/
def gpioLines (r : Nat) (s : State) : State :=
  (List.range 16).foldl (fun s n => setLine (496 + n) (gpioActive s.sb n) r s) s

/-- The synchroniser gives the level of the pins of a mask (R514). -/
def pinsSense (mask level : BitVec 16) (s : State) : State :=
  gpioLines s.now (modSb (fun b => { b with gpioPin := (b.gpioPin &&& ~~~mask) ||| (level &&& mask) }) s)

/-- POL, OE and OUT take effect at the pins: the lines change in that cycle, and the synchroniser gives the levels driven 2 or 3 fabric
cycles later (R8, R514; log entry 15). -/
def pinsTake (pol oe out : BitVec 16) (s : State) : State :=
  let s := gpioLines s.now (modSb (fun b => { b with pinPol := pol, pinOe := oe }) s)
  let (d, s) := drawCompute s
  schedule 0 (s.now + 2 * d) 0 (.sense oe out) s

/-- A store to GPIOCFG or GPIOOUT takes effect at the pins 2 fabric cycles after its perform cycle (R514). -/
def gpioStored (s : State) : State := schedule 0 (s.now + 4) 0 (.pins s.sb.gpioPol s.sb.gpioOe s.sb.gpioOut) s

end Sys2Proof.Machine
end

