-- ==== Sys2Proof/Machine/FloatArith.lean ====
section
/-! DEFINITION. Binary32 values (R41) and the operations on them with their classes (R227-R240), shared by the scalar
instructions and the vector lanes. -/
namespace Sys2Proof.Machine

/-! ## Classes, in the bit order of FPFLAGS (R228) -/

/-- IV. -/
def fpIV : BitVec 5 := 1
/-- DZ. -/
def fpDZ : BitVec 5 := 2
/-- OF. -/
def fpOF : BitVec 5 := 4
/-- UF. -/
def fpUF : BitVec 5 := 8
/-- NX. -/
def fpNX : BitVec 5 := 16

/-- A result of 32 bits with the classes it raises. -/
structure FpOut where
  v : BitVec 32
  classes : BitVec 5
  deriving DecidableEq, Repr

/-- FPCTL.RM (R227). -/
def fpRM (ctl : BitVec 32) : Nat := (ctl.extractLsb' 0 2).toNat
/-- FPCTL.FTZ. -/
def fpFTZ (ctl : BitVec 32) : Bool := ctl.getLsbD 2
/-- FPCTL.DAZ. -/
def fpDAZ (ctl : BitVec 32) : Bool := ctl.getLsbD 3
/-- The trap enables of FPCTL, in the bit order of FPFLAGS. -/
def fpTraps (ctl : BitVec 32) : BitVec 5 := ctl.extractLsb' 7 5

/-! ## Operands -/

/-- A binary32 operand (R41): a NaN, an infinity, or the number m × 2^e with its sign. -/
inductive Fp where
  | nan (signaling : Bool)
  | inf (neg : Bool)
  | num (neg : Bool) (m : Nat) (e : Int)
  deriving DecidableEq, Repr

/-- R41: 32 bits as an operand; DAZ reads a subnormal as a zero of its sign. -/
def fpRead (daz : Bool) (b : BitVec 32) : Fp :=
  let neg := b.getLsbD 31
  let ex := (b.extractLsb' 23 8).toNat
  let fr := (b.extractLsb' 0 23).toNat
  if ex = 255 then (if fr = 0 then .inf neg else .nan (!b.getLsbD 22))
  else if ex = 0 then .num neg (if daz then 0 else fr) (-149)
  else .num neg (fr + 2 ^ 23) (ex - 150)

/-- The default NaN (R231). -/
def fpNaN : BitVec 32 := 0x7FC00000
/-- The sign bit. -/
def fpSign (neg : Bool) : BitVec 32 := if neg then 0x80000000 else 0
/-- An infinity. -/
def fpInf (neg : Bool) : BitVec 32 := fpSign neg ||| 0x7F800000
/-- A zero. -/
def fpZero (neg : Bool) : FpOut := { v := fpSign neg, classes := 0 }
/-- The result of an invalid operation (R231). -/
def fpInvalid : FpOut := { v := fpNaN, classes := fpIV }
/-- A quiet NaN passed on. -/
def fpQuiet : FpOut := { v := fpNaN, classes := 0 }

/-- Whether an operand is a signaling NaN. -/
def Fp.snan : Fp → Bool
  | .nan s => s
  | _ => false
/-- Whether an operand is a NaN. -/
def Fp.isNan : Fp → Bool
  | .nan _ => true
  | _ => false
/-- The sign of an operand; a NaN has none. -/
def Fp.neg : Fp → Bool
  | .inf n => n
  | .num n _ _ => n
  | .nan _ => false
/-- An operand with its sign inverted. -/
def Fp.flip : Fp → Fp
  | .inf n => .inf !n
  | .num n m e => .num (!n) m e
  | .nan s => .nan s

/-- A NaN among operands gives the default NaN, with IV for a signaling one (R231). -/
def fpNans (l : List Fp) : Option FpOut :=
  if l.any Fp.snan then some fpInvalid else if l.any Fp.isNan then some fpQuiet else none

/-! ## Rounding (R227, R229) -/

/-- Whether a magnitude is rounded up: `half` compares what is cut off with half a unit (0 below, 1 equal, 2 above). -/
def fpUp (rm : Nat) (neg odd exact : Bool) (half : Nat) : Bool :=
  if exact then false
  else match rm with
    | 0 => half == 2 || (half == 1 && odd)
    | 1 => false
    | 2 => !neg
    | _ => neg

/-- m × 2^e, with something more below it where `sticky` is set, rounded to a multiple of 2^q: the multiple, and whether
it is inexact. -/
def fpRoundAt (rm : Nat) (neg : Bool) (m : Nat) (e : Int) (sticky : Bool) (q : Int) : Nat × Bool :=
  if q ≤ e then (m * 2 ^ (e - q).toNat, sticky)
  else
    let k := (q - e).toNat
    let r := m % 2 ^ k
    let exact := decide (r = 0) && !sticky
    let h := 2 ^ (k - 1)
    let half := if r < h then 0 else if r = h ∧ !sticky then 1 else 2
    let n := m / 2 ^ k
    (if fpUp rm neg (n % 2 == 1) exact half then n + 1 else n, !exact)

/-- A number n × 2^q of at most 24 bits as binary32, where it is in range. -/
def fpPack (neg : Bool) (n : Nat) (q : Int) : BitVec 32 :=
  if n = 0 then fpSign neg else fpSign neg ||| BitVec.ofNat 32 ((q + 149).toNat * 2 ^ 23 + n)

/-- R229: a nonzero value m × 2^e, with something more below it where `sticky` is set, as a result. -/
def fpRound (ctl : BitVec 32) (neg : Bool) (m : Nat) (e : Int) (sticky : Bool) : FpOut :=
  let rm := fpRM ctl
  let q : Int := Nat.log2 m + e - 23
  let (n, ix) := fpRoundAt rm neg m e sticky q
  let q := if n = 2 ^ 24 then q + 1 else q
  let n := if n = 2 ^ 24 then 2 ^ 23 else n
  if q < -149 then
    if fpFTZ ctl then { v := fpSign neg, classes := fpUF ||| fpNX }
    else
      let (n, ix) := fpRoundAt rm neg m e sticky (-149)
      { v := fpPack neg n (-149), classes := if ix then fpUF ||| fpNX else 0 }
  else if 104 < q then
    let toInf := rm == 0 || (rm == 2 && !neg) || (rm == 3 && neg)
    { v := if toInf then fpInf neg else fpSign neg ||| 0x7F7FFFFF, classes := fpOF ||| fpNX }
  else { v := fpPack neg n q, classes := if ix then fpNX else 0 }

/-! ## Arithmetic (R225, R231) -/

/-- The exact sum of two numbers as a result; an exact zero is minus where both are, or under RDN where their signs differ. -/
def fpSum (ctl : BitVec 32) (n1 : Bool) (m1 : Nat) (e1 : Int) (n2 : Bool) (m2 : Nat) (e2 : Int) : FpOut :=
  let e := min e1 e2
  let x : Int := (if n1 then -1 else 1) * ((m1 : Int) * 2 ^ (e1 - e).toNat) + (if n2 then -1 else 1) * ((m2 : Int) * 2 ^ (e2 - e).toNat)
  if x = 0 then fpZero (if n1 = n2 then n1 else fpRM ctl == 3)
  else fpRound ctl (decide (x < 0)) x.natAbs e false

/-- a + b. -/
def fpAdd (ctl : BitVec 32) (a b : Fp) : FpOut :=
  match fpNans [a, b], a, b with
  | some r, _, _ => r
  | none, .inf x, .inf y => if x = y then { v := fpInf x, classes := 0 } else fpInvalid
  | none, .inf x, _ => { v := fpInf x, classes := 0 }
  | none, _, .inf y => { v := fpInf y, classes := 0 }
  | none, .num n1 m1 e1, .num n2 m2 e2 => fpSum ctl n1 m1 e1 n2 m2 e2
  | none, _, _ => fpQuiet

/-- a × b. -/
def fpMul (ctl : BitVec 32) (a b : Fp) : FpOut :=
  let neg := a.neg != b.neg
  match fpNans [a, b], a, b with
  | some r, _, _ => r
  | none, .num _ m1 e1, .num _ m2 e2 => if m1 * m2 = 0 then fpZero neg else fpRound ctl neg (m1 * m2) (e1 + e2) false
  | none, .num _ m _, _ => if m = 0 then fpInvalid else { v := fpInf neg, classes := 0 }
  | none, _, .num _ m _ => if m = 0 then fpInvalid else { v := fpInf neg, classes := 0 }
  | none, _, _ => { v := fpInf neg, classes := 0 }

/-- a × b + d with one rounding. -/
def fpFma (ctl : BitVec 32) (a b d : Fp) : FpOut :=
  let neg := a.neg != b.neg
  let zero (x : Fp) : Bool := match x with | .num _ m _ => m == 0 | _ => false
  let inf (x : Fp) : Bool := match x with | .inf _ => true | _ => false
  if [a, b, d].any Fp.snan then fpInvalid
  else if (inf a && zero b) || (zero a && inf b) then fpInvalid
  else if [a, b, d].any Fp.isNan then fpQuiet
  else if inf a || inf b then
    match d with
    | .inf y => if y = neg then { v := fpInf neg, classes := 0 } else fpInvalid
    | _ => { v := fpInf neg, classes := 0 }
  else
    match a, b, d with
    | _, _, .inf y => { v := fpInf y, classes := 0 }
    | .num _ m1 e1, .num _ m2 e2, .num n3 m3 e3 => fpSum ctl neg (m1 * m2) (e1 + e2) n3 m3 e3
    | _, _, _ => fpQuiet

/-- a / b. -/
def fpDiv (ctl : BitVec 32) (a b : Fp) : FpOut :=
  let neg := a.neg != b.neg
  match fpNans [a, b], a, b with
  | some r, _, _ => r
  | none, .inf _, .inf _ => fpInvalid
  | none, .inf _, _ => { v := fpInf neg, classes := 0 }
  | none, _, .inf _ => fpZero neg
  | none, .num _ m1 e1, .num _ m2 e2 =>
    if m2 = 0 then (if m1 = 0 then fpInvalid else { v := fpInf neg, classes := fpDZ })
    else if m1 = 0 then fpZero neg
    else fpRound ctl neg (m1 * 2 ^ 64 / m2) (e1 - e2 - 64) (m1 * 2 ^ 64 % m2 != 0)
  | none, _, _ => fpQuiet

/-- The integer square root by its digits, from bit k - 1 of the root down. -/
def rootFrom (n : Nat) : Nat → Nat → Nat
  | 0, r => r
  | k + 1, r => let r' := r + 2 ^ k; rootFrom n k (if r' * r' ≤ n then r' else r)

/-- √a. -/
def fpSqrt (ctl : BitVec 32) (a : Fp) : FpOut :=
  match a with
  | .nan s => if s then fpInvalid else fpQuiet
  | .inf n => if n then fpInvalid else { v := fpInf false, classes := 0 }
  | .num n m e =>
    if m = 0 then fpZero n
    else if n then fpInvalid
    else
      let odd := e % 2 != 0
      let x := m * 2 ^ (if odd then 61 else 60)
      let r := rootFrom x 43 0
      fpRound ctl false r ((e - (if odd then 1 else 0)) / 2 - 30) (r * r != x)

/-! ## Comparison, minimum and maximum (R230, R231) -/

/-- A number as a signed integer on a scale common to all binary32 numbers; the infinities lie beyond them. -/
def Fp.key : Fp → Int
  | .nan _ => 0
  | .inf n => if n then -(2 ^ 300) else 2 ^ 300
  | .num n m e => (if n then -1 else 1) * ((m : Int) * 2 ^ (e + 149).toNat)

/-- The relation of two operands: none where they are unordered. -/
def fpRel (a b : Fp) : Option Ordering :=
  if a.isNan || b.isNan then none else some (compare a.key b.key)

/-- IV for a signaling NaN among two operands. -/
def fpSnans (a b : Fp) : BitVec 5 := if a.snan || b.snan then fpIV else 0

/-- An operand as its bits, after DAZ. -/
def Fp.bits (orig : BitVec 32) : Fp → BitVec 32
  | .num n m _ => if m = 0 then fpSign n else orig
  | _ => orig

/-- FMIN and FMAX on two words of 32 bits (R230). -/
def fpMinMax (ctl : BitVec 32) (max : Bool) (x y : BitVec 32) : FpOut :=
  let a := fpRead (fpDAZ ctl) x
  let b := fpRead (fpDAZ ctl) y
  let r (v : BitVec 32) : FpOut := { v := v, classes := 0 }
  if a.snan || b.snan then fpInvalid
  else if a.isNan && b.isNan then fpQuiet
  else if a.isNan then r (b.bits y)
  else if b.isNan then r (a.bits x)
  else
    let less := decide (a.key < b.key) || (decide (a.key = b.key) && a.neg && !b.neg)
    if less != max then r (a.bits x) else r (b.bits y)

/-- FCMP: N, Z, C and V (R231). -/
def fpCmpFlags (a b : Fp) : BitVec 6 :=
  match fpRel a b with
  | some .lt => fN
  | some .eq => fZ ||| fC
  | some .gt => fC
  | none => fC ||| fV

/-! ## Conversions (R237, R238) -/

/-- FCVTSW: the signed integer n × 10^sh as binary32 (R237). -/
def fpFromInt (ctl : BitVec 32) (n sh : Int) : FpOut :=
  if n = 0 then fpZero false
  else
    let c := ctl &&& 3
    let neg := decide (n < 0)
    if 0 ≤ sh then fpRound c neg (n.natAbs * 10 ^ sh.toNat) 0 false
    else
      let d := 10 ^ (-sh).toNat
      fpRound c neg (n.natAbs * 2 ^ 128 / d) (-128) (n.natAbs * 2 ^ 128 % d != 0)

/-- FCVTWS: x × 10^sh as a signed 32-bit integer (R238). -/
def fpToInt (ctl : BitVec 32) (sh : Int) (a : Fp) : FpOut :=
  match a with
  | .nan _ => { v := 0, classes := fpIV }
  | .inf n => { v := if n then 0x80000000 else 0x7FFFFFFF, classes := fpIV }
  | .num neg m e =>
    let num := m * 10 ^ sh.toNat * 2 ^ e.toNat
    let den := 10 ^ (-sh).toNat * 2 ^ (-e).toNat
    let r := num % den
    let half := if 2 * r < den then 0 else if 2 * r = den then 1 else 2
    let q := num / den
    let q := if fpUp (fpRM ctl) neg (q % 2 == 1) (r == 0) half then q + 1 else q
    if neg then
      if 2 ^ 31 < q then { v := 0x80000000, classes := fpIV }
      else { v := -(BitVec.ofNat 32 q), classes := if r = 0 then 0 else fpNX }
    else if 2 ^ 31 ≤ q then { v := 0x7FFFFFFF, classes := fpIV }
    else { v := BitVec.ofNat 32 q, classes := if r = 0 then 0 else fpNX }

/-! ## Stepped division and root (R235, R236) -/

/-- The pair between the steps (R235). -/
structure FdPair where
  dm : BitVec 64
  r : BitVec 64
  sgn : Bool
  kind : BitVec 2
  exp : BitVec 10
  sfl : BitVec 5
  q : BitVec 32
  deriving DecidableEq, Repr

/-- A pair as its two words. -/
def FdPair.words (p : FdPair) : Word × Word :=
  (p.dm ++ p.r,
   ((0 : BitVec 64) ++ (if p.sgn then 1#1 else 0#1) ++ p.kind ++ p.exp ++ p.sfl ++ (0 : BitVec 14) ++ p.q))

/-- Two words as a pair. -/
def FdPair.ofWords (a b : Word) : FdPair :=
  { dm := a.extractLsb' 64 64, r := a.extractLsb' 0 64, sgn := b.getLsbD 63, kind := b.extractLsb' 61 2,
    exp := b.extractLsb' 51 10, sfl := b.extractLsb' 46 5, q := b.extractLsb' 0 32 }

/-- A nonzero number with its significand in 2^23 to 2^24 - 1, and its exponent as 1.f × 2^e. -/
def fpNorm (m : Nat) (e : Int) : Nat × Int :=
  let k := 23 - Nat.log2 m
  (m * 2 ^ k, e - k + 23)

/-- A special start: Q and SFL are given; what the spec does not give of the pair comes from a free word. -/
def fdSpecial (o : FpOut) (fill : Word) : FdPair :=
  { FdPair.ofWords fill fill with kind := 2, sfl := o.classes, q := o.v }

/-- FDSTEPD (R236). -/
def fdStartDiv (ctl : BitVec 32) (a b : Fp) (fill : Word) : FdPair :=
  match a, b with
  | .num _ m1 e1, .num _ m2 e2 =>
    if m1 = 0 ∨ m2 = 0 then fdSpecial (fpDiv ctl a b) fill
    else
      let (ma, ea) := fpNorm m1 e1
      let (mb, eb) := fpNorm m2 e2
      let big := decide (mb ≤ ma)
      { dm := BitVec.ofNat 64 mb, r := BitVec.ofNat 64 (if big then ma else 2 * ma), sgn := a.neg != b.neg, kind := 0,
        exp := BitVec.ofInt 10 (if big then ea - eb else ea - eb - 1), sfl := 0, q := 0 }
  | _, _ => fdSpecial (fpDiv ctl a b) fill

/-- FDSTEPR (R236). -/
def fdStartRoot (ctl : BitVec 32) (a : Fp) (fill : Word) : FdPair :=
  match a with
  | .num n m e =>
    if m = 0 ∨ n then fdSpecial (fpSqrt ctl a) fill
    else
      let (ma, ea) := fpNorm m e
      let odd := ea % 2 != 0
      { dm := BitVec.ofNat 64 (if odd then 2 * ma * 2 ^ 39 else ma * 2 ^ 39), r := 0, sgn := false, kind := 1,
        exp := BitVec.ofInt 10 ((ea - (if odd then 1 else 0)) / 2), sfl := 0, q := 0 }
  | _ => fdSpecial (fpSqrt ctl a) fill

/-- One result bit (R236). -/
def fdBit (p : FdPair) : FdPair :=
  if p.kind = 0 then
    let hit := decide (p.dm.toNat ≤ p.r.toNat)
    { p with q := 2 * p.q + (if hit then 1 else 0), r := 2 * (if hit then p.r - p.dm else p.r) }
  else
    let t := 4 * p.r + (p.dm >>> 62)
    let s : BitVec 64 := 4 * p.q.setWidth 64 + 1
    let hit := decide (s.toNat ≤ t.toNat)
    { p with dm := p.dm <<< 2, r := if hit then t - s else t, q := 2 * p.q + (if hit then 1 else 0) }

/-- FDSTEP: two result bits (R236). -/
def fdStep (p : FdPair) : FdPair := if p.kind = 2 then p else fdBit (fdBit p)

/-- FDSTEPF: the result with its classes (R236). The pseudocode is followed on whatever Q the pair holds, after another number of steps than 13
too: Q counts in units of 2 to the power EXP - 25, and Q = 0 gives a zero of sign SGN with SFL alone (DEDUCED, log entry 11). -/
def fdFinish (ctl : BitVec 32) (p : FdPair) : FpOut :=
  if p.kind = 2 then { v := p.q, classes := p.sfl }
  else
    let sticky := p.r != 0
    if p.q = 0 then { v := fpSign p.sgn, classes := p.sfl }
    else
      let o := fpRound ctl p.sgn p.q.toNat (p.exp.toInt - 25) sticky
      { o with classes := o.classes ||| p.sfl }

end Sys2Proof.Machine
end

