-- ==== Sys2Proof/Machine/DecArith.lean ====
section
/-! DEFINITION. Packed and zoned decimal values (R24-R33) and the decimal arithmetic with its flags and causes
(R130-R143). -/
namespace Sys2Proof.Machine

/-! ## Formats -/

/-- The largest magnitude plus one, 10^31 (R24). -/
def ten31 : Nat := 10 ^ 31

/-- Digit k of a packed word (R24). -/
def digitOf (v k : Nat) : Nat := v / 16 ^ (k + 1) % 16

/-- Whether the low k nibbles of a number are digits. -/
def allDigits : Nat → Nat → Bool
  | 0, _ => true
  | k + 1, v => decide (v % 16 ≤ 9) && allDigits k (v / 16)

/-- The number that the low k nibbles spell, nibble 0 the least significant digit. -/
def digitsVal : Nat → Nat → Nat
  | 0, _ => 0
  | k + 1, v => v % 16 + 10 * digitsVal k (v / 16)

/-- The k nibbles of a number's low k decimal digits. -/
def digitsOf : Nat → Nat → Nat
  | 0, _ => 0
  | k + 1, x => x % 10 + 16 * digitsOf k (x / 10)

/-- A decimal operand: its magnitude and whether its sign code is minus. -/
structure Dec where
  mag : Nat
  minus : Bool
  deriving DecidableEq, Repr

/-- The signed value. -/
def Dec.val (d : Dec) : Int := if d.minus then -(d.mag : Int) else d.mag

/-- R25: a packed word read as an operand; none where it is invalid. -/
def decRead (w : Word) : Option Dec :=
  let v := w.toNat
  let sg := v % 16
  if allDigits 31 (v / 16) && decide (10 ≤ sg) then
    some { mag := digitsVal 31 (v / 16), minus := sg == 11 || sg == 13 }
  else none

/-- A packed word with a preferred sign (R26). -/
def decImage (m : Nat) (minus : Bool) : Word := BitVec.ofNat 128 (digitsOf 31 m * 16 + (if minus then 13 else 12))

/-! ## Results -/

/-- What a decimal instruction gives: the words for gd and gd + 1, the flags, and its cause (R131, R145). -/
structure DecOut where
  r0 : Option Word
  r1 : Option Word
  mask : BitVec 6
  vals : BitVec 6
  cause : BitVec 8
  deriving DecidableEq, Repr

/-- DEC_DATA (R303). -/
def cDecData : BitVec 8 := 0x12
/-- DEC_OVERFLOW (R303). -/
def cDecOverflow : BitVec 8 := 0x13
/-- DEC_DIVIDE (R303). -/
def cDecDivide : BitVec 8 := 0x14

/-- R130: an invalid operand writes DX as 1 and DV as 0, and nothing else. -/
def decInvalid : DecOut := { r0 := none, r1 := none, mask := fDX ||| fDV, vals := fDX, cause := cDecData }

/-- R131: the word written for an exact result with its natural sign. -/
def decWord (kz : Bool) (x : Int) (natural : Bool) : Word :=
  let m := x.natAbs % ten31
  let sm := if x = 0 then natural else decide (x < 0)
  decImage m (sm && (kz || decide (m ≠ 0)))

/-- R131: N and Z of an exact result. -/
def decNZ (x : Int) : BitVec 6 :=
  let m := x.natAbs % ten31
  flag fN (decide (x < 0) && decide (m ≠ 0)) ||| flag fZ (m == 0)

/-- R131: a result with N, Z, DX and DV, raising DEC_OVERFLOW. -/
def decResult (kz : Bool) (x : Int) (natural : Bool) : DecOut :=
  let dv := decide (ten31 ≤ x.natAbs)
  { r0 := some (decWord kz x natural), r1 := none, mask := fN ||| fZ ||| fDX ||| fDV,
    vals := decNZ x ||| flag fDV dv, cause := if dv then cDecOverflow else 0 }

/-- R136: num / den rounded to an integer, in magnitude, for a value of the given sign. -/
def roundMag (rm : Nat) (neg : Bool) (num den : Nat) : Nat :=
  let q := num / den
  let r := num % den
  let up :=
    if r = 0 then false
    else match rm with
      | 0 => decide (den ≤ 2 * r)
      | 1 => decide (den < 2 * r) || (decide (den = 2 * r) && q % 2 == 1)
      | 2 => false
      | 3 => true
      | 4 => neg
      | _ => !neg
  if up then q + 1 else q

/-- A magnitude with a sign, as an integer. -/
def signedMag (neg : Bool) (m : Nat) : Int := if neg then -(m : Int) else m

/-- DADD, and DSUB through the inverted sign of b (R132, R137). -/
def decAdd (kz : Bool) (a b : Dec) : DecOut := decResult kz (a.val + b.val) (a.minus && b.minus)

/-- An operand with its sign inverted (R132). -/
def Dec.neg (d : Dec) : Dec := { d with minus := !d.minus }

/-- DMUL (R137). -/
def decMul (kz : Bool) (a b : Dec) : DecOut := decResult kz (a.val * b.val) (a.minus != b.minus)

/-- DDIV (R138). -/
def decDiv (kz : Bool) (rm : Nat) (a b : Dec) : DecOut :=
  if b.mag = 0 then
    { r0 := some (decImage 0 false), r1 := some (decWord kz a.val a.minus), mask := fN ||| fZ ||| fDX ||| fDV,
      vals := fZ ||| fDV, cause := cDecDivide }
  else
    let neg := a.minus != b.minus
    let q := signedMag neg (roundMag rm neg a.mag b.mag)
    let r := a.val - q * b.val
    { r0 := some (decWord kz q neg), r1 := some (decWord kz r a.minus), mask := fN ||| fZ ||| fDX ||| fDV,
      vals := decNZ q, cause := 0 }

/-- DCMP (R137, R27). -/
def decCmp (a b : Dec) : DecOut :=
  { r0 := none, r1 := none, mask := fN ||| fZ ||| fC ||| fV ||| fDX,
    vals := flag fN (decide (a.val < b.val)) ||| flag fZ (decide (a.val = b.val)) ||| flag fC (decide (b.val ≤ a.val)),
    cause := 0 }

/-- DTST (R130, R137). -/
def decTst (a : Option Dec) : DecOut :=
  match a with
  | none => { r0 := none, r1 := none, mask := fDX, vals := fDX, cause := 0 }
  | some d =>
    { r0 := none, r1 := none, mask := fN ||| fZ ||| fDX, vals := flag fZ (d.mag == 0) ||| flag fN (d.minus && d.mag != 0),
      cause := 0 }

/-- DCVB at n bits (R140); INT_OVERFLOW is its cause. -/
def decToBin (n : Nat) (a : Dec) : DecOut :=
  let x := a.val
  let d := wrapTo n x
  let v := decide (toSigned n d ≠ x)
  { r0 := some (signFill n d), r1 := none, mask := fN ||| fZ ||| fV ||| fDX, vals := nz n d ||| flag fV v,
    cause := if v then 0x10 else 0 }

/-- DCVD of a signed n-bit value (R140); it writes N, Z and DV. -/
def binToDec (kz : Bool) (n v : Nat) : DecOut :=
  let o := decResult kz (toSigned n v) false
  { o with mask := fN ||| fZ ||| fDV }

/-- DSRR (R139). -/
def decShift (kz : Bool) (rm : Nat) (sh : Int) (a : Dec) : DecOut :=
  let x : Int := if 0 ≤ sh then a.val * (10 ^ sh.toNat : Nat) else signedMag a.minus (roundMag rm a.minus a.mag (10 ^ (-sh).toNat))
  decResult kz x a.minus

/-! ## Fields in memory -/

/-- R29: a field brought into a register, right-aligned. -/
def decField (bs : List Byte) : Word := BitVec.ofNat 128 (ofBe bs)

/-- R30: the last n bytes of the image of a register. -/
def decBytes (w : Word) (n : Nat) : List Byte := (beBytes 16 w.toNat).drop (16 - n)

/-- The digits of a zoned field in packed order. -/
def zonedDigits (bs : List Byte) : Nat := bs.foldl (fun x b => x * 16 + b.toNat % 16) 0

/-- R32: a zoned field read as an operand. -/
def zonedRead (bs : List Byte) : Option Dec :=
  let z := (bs.getLast?.getD 0).toNat / 16
  let v := zonedDigits bs
  if allDigits bs.length v then
    if [3, 10, 12, 14, 15].contains z then some { mag := digitsVal bs.length v, minus := false }
    else if [7, 11, 13].contains z then some { mag := digitsVal bs.length v, minus := true }
    else none
  else none

/-- PACK (R142): DV is written 0. -/
def decPack (kz : Bool) (bs : List Byte) : DecOut :=
  match zonedRead bs with
  | none => decInvalid
  | some d =>
    { r0 := some (decWord kz d.val d.minus), r1 := none, mask := fN ||| fZ ||| fDX ||| fDV, vals := decNZ d.val, cause := 0 }

/-- The n bytes of a zoned field, least significant digit last, before the sign (R33). -/
def zonedBytes : Nat → Nat → List Byte
  | 0, _ => []
  | n + 1, m => zonedBytes n (m / 10) ++ [BitVec.ofNat 8 (0x30 + m % 10)]

/-- UNPK (R143): the field, and DV where digits are lost. -/
def decUnpack (kz : Bool) (n : Nat) (a : Dec) : List Byte × DecOut :=
  let low := a.mag % 10 ^ n
  let minus := a.minus && (kz || decide (low ≠ 0))
  let bs := zonedBytes n low
  let bs := if minus then bs.dropLast ++ [(bs.getLast?.getD 0) ||| 0x40] else bs
  let dv := decide (10 ^ n ≤ a.mag)
  (bs, { r0 := none, r1 := none, mask := fDX ||| fDV, vals := flag fDV dv, cause := if dv then cDecOverflow else 0 })

/-! ## DCTL (R134) -/

/-- DCTL.KZ. -/
def dcKZ (d : BitVec 32) : Bool := d.getLsbD 8
/-- DCTL.RM. -/
def dcRM (d : BitVec 32) : Nat := (d.extractLsb' 0 3).toNat

/-- R145: whether the cause of a result is raised, by its enable in DCTL or STATUS. -/
def causeEnabled (dctl st : BitVec 32) (code : BitVec 8) : Bool :=
  match code.toNat with
  | 0x10 => stOE st
  | 0x12 => dctl.getLsbD 4
  | 0x13 => dctl.getLsbD 5
  | 0x14 => dctl.getLsbD 6
  | _ => false

end Sys2Proof.Machine
end

