-- ==== Sys2Proof/Machine/Access.lean ====
section
/-! DEFINITION. What a load brings: register values, decimal fields (R56, R114, R142), and the reads of LDS and the LIS in E1 (R52, R75,
R144). -/
namespace Sys2Proof.Machine

/-- A load's bytes as a register value, sign- or zero-extended (R114). -/
def extendBytes (sgn : Bool) (bs : List Byte) : Word :=
  if sgn then BitVec.ofInt 128 (toSigned (8 * bs.length) (ofLe bs)) else BitVec.ofNat 128 (ofLe bs)

/-- R295: in lean mode a key handle is written with its tag cleared. -/
def suppress (s : State) (v : TWord) : TWord := if s.lean && isHandle v then { v with tag := false } else v

/-- What a load writes from its bytes and the tag of the word. -/
def loadValue (s : State) (dest : LoadDest) (bs : List Byte) (tag : Bool) : Option (Reg × TWord) :=
  match dest with
  | .reg r sgn => some (r, TWord.plain (extendBytes sgn bs))
  | .cap r => some (r, suppress s { val := BitVec.ofNat 128 (ofLe bs), tag := tag })
  | .dec _ => none

/-- Whether a region is reached through the fabric (R56). -/
def Region.outside : Region → Bool
  | .lds _ => false
  | .lis _ => false
  | _ => true

/-- The holds of a scalar access of n bytes at ea that reads (R53). -/
def loadNeeds (c : CoreId) (ea n : Nat) : Needs :=
  let r := regionOf c ea n
  { region := r,
    reads := match r with | some (.lds _) => [(ea, n)] | _ => [],
    globals := match r with | some x => if x.outside then 1 else 0 | none => 0,
    room := 0, order := true }

/-- The holds of a scalar store of n bytes at ea (R53, R74, R80). -/
def storeNeeds (c : CoreId) (ea n : Nat) : Needs :=
  let r := regionOf c ea n
  match r with
  | some (.lds _) => { region := r, reads := [], globals := 0, room := 1, order := false }
  | _ => { region := r, reads := [], globals := 0, room := 0, order := r.isSome }

/-- A read of n bytes whose data core c consumes: single-bit errors are corrected, and an uncorrectable one makes a MACHINE_CHECK due with
INFO in a cycle (R266, R268). -/
def consume (c : CoreId) (due info a n : Nat) (s : State) : State :=
  let s := softRead a n s
  match eccHit s a n with
  | some w => consumedEcc c due info w s
  | none => s

/-- What the key check of an access that passes counts (R265, R266). -/
def checkKeys (c : CoreId) (a : Auth) (n : Nat) (s : State) : State := softKeys c.val (capKey a.cap.val) a.ea n s

/-! ## Decimal results (R133, R142, R145, R146) -/

/-- The registers and flags of a decimal result, visible from cycle `due` on (R133). -/
def writeDec (c : CoreId) (due : Nat) (gd : Reg) (o : DecOut) (s : State) : State :=
  let s := match o.r0 with
    | some w => pushReg c due gd w s
    | none => s
  let s := match o.r1 with
    | some w => pushReg c due (pairReg gd) w s
    | none => s
  pushFlags c due o.mask o.vals s

/-- The cause of a decimal result, recorded where its enable is set (R145, R146). -/
def decCause (c : CoreId) (o : DecOut) (s : State) : State :=
  let k := s.core c
  causeIf (causeEnabled k.regs.dctl k.x.status o.cause) c o.cause s

/-- What a decimal memory form that reads gives from its field (R142). -/
def DecLoad.out (d : DecLoad) (bs : List Byte) : DecOut :=
  match d.kind with
  | .dld => { r0 := some (decField bs), r1 := none, mask := 0, vals := 0, cause := 0 }
  | .pack => decPack (dcKZ d.dctl) bs
  | .dadd =>
    match decRead d.a, decRead (decField bs) with
    | some a, some b => decAdd (dcKZ d.dctl) a b
    | _, _ => decInvalid
  | .dsub =>
    match decRead d.a, decRead (decField bs) with
    | some a, some b => decAdd (dcKZ d.dctl) a b.neg
    | _, _ => decInvalid

/-- The cause of a decimal load, recorded by the slot and address of its instruction (R146). -/
def decLoadCause (c : CoreId) (d : DecLoad) (o : DecOut) (s : State) : State :=
  if causeEnabled d.dctl 0 o.cause then
    s.modSeq c fun q =>
      match q.imprecise with
      | some _ => q
      | none => { q with imprecise := some { code := o.cause, due := d.slot + (if d.pa then 1 else 5), after := 0, xaddr := d.pc } }
  else s

/-! ## Reads in E1 (R52, R56, R75, R144, R268) -/

/-- A load from LDS or the LIS of n bytes in parts, each with where it lies and what the store buffer forwards; it issues in cycle t, and
each part is read in its E1 (R52, R56). -/
def sendLocal (c : CoreId) (t : Nat) (dest : LoadDest) (due : Nat) (parts : List (Nat × List (Option Byte))) (tag : Option Bool)
    (s : State) : State :=
  let (seq, s) := takeSeq c s
  schedule c (t + 2) 0 (.load { dest := dest, seq := seq, due := due, parts := parts, tag := tag, got := [] }) s

/-- The bytes of a part: those forwarded, and the others from memory. -/
def mergeBytes (fwd : List (Option Byte)) (bs : List Byte) : List Byte := List.zipWith (fun o b => o.getD b) fwd bs

/-- The result of a local load (R56, R62, R142). -/
def localResult (c : CoreId) (l : LocalLoad) (tag : Bool) (s : State) : State :=
  match l.dest with
  | .dec d => decLoadCause c d (d.out l.got) (writeDec c l.due d.gd (d.out l.got) s)
  | dest =>
    match loadValue s dest l.got tag with
    | some (r, v) => pushAt c l.due l.seq (.reg r v) s
    | none => s

/-- One part of a local load read in cycle x. A word with an uncorrectable error raises MACHINE_CHECK in the cycle of the result, and
nothing is written (R268); ECCADDR and UECNT take it in x (log entry 104). -/
def readPart (c : CoreId) (x : Nat) (l : LocalLoad) (s : State) : State :=
  match l.parts with
  | [] => s
  | (a, fwd) :: rest =>
    match (if fwd.all Option.isSome then none else eccHit s a fwd.length) with
    | some w => consumedEcc c l.due 2 w s
    | none =>
      let s := if fwd.all Option.isSome then s else softRead a fwd.length s
      let tag := l.tag.getD (tagGet s a)
      let l := { l with parts := rest, got := l.got ++ mergeBytes fwd (s.bytes a fwd.length) }
      if rest.isEmpty then localResult c l tag s else schedule c (x + 1) 0 (.load l) s

end Sys2Proof.Machine
end

