-- ==== Sys2Proof/Machine/StringOps.lean ====
section
/-! DEFINITION. What the string, translate and edit instructions do (R155-R167, R171-R175, R181-R189): their runs from one interruption point
to the next, and MVBL through the global scratchpad. What a span of a string instruction reads and writes comes about in its last cycle
(log entry 53). -/
namespace Sys2Proof.Machine

/-! ## Pointers and blocks (R156, R167, R174) -/

/-- R156, R294: a capability register advanced by k; at legacy level only bits [51:0] change, untagged. -/
def advancePtr (legacy : Bool) (v : TWord) (k : Nat) : TWord :=
  { val := setAddr v.val (capAddr v.val + BitVec.ofNat 52 k), tag := v.tag && !legacy }

/-- A pointer register advanced by k in cycle `due`, from the value that the instruction read. -/
def pushPtr (c : CoreId) (due : Nat) (legacy : Bool) (r : Reg) (v : TWord) (k : Nat) (s : State) : State :=
  pushCap c due r (advancePtr legacy v k) s

/-- The block of number k of a range, as the offsets [lo, hi) of its bytes from the start of the range (R167). -/
def blockSpan (a n k : Nat) : Nat × Nat :=
  let first := a / 64 * 64
  ((first + 64 * k) - a, min n (first + 64 * (k + 1) - a))

/-- The bytes of a range that its first j blocks hold (R174). -/
def blockBytes (a n j : Nat) : Nat := if j = 0 then 0 else (blockSpan a n (j - 1)).2

/-- Where the bytes of a local range lie in device memory. -/
def strAt (c : CoreId) (ea : Nat) : Nat :=
  match regionOf c ea 1 with
  | some (.lds x) => x
  | some (.lis x) => x
  | _ => ea

/-- COUNT of a count register (R155). -/
def countOf (v : TWord) : Nat := v.val.toNat % 2 ^ 32

/-- Bytes written by a string instruction (R39, R156, R267). -/
def strPut (a : Nat) (bs : List Byte) (s : State) : State := storeBytes (partialEcc a bs.length s) a bs

/-- The address of a pointer operand. -/
def ptrAt (v : TWord) : Nat := (capAddr v.val).toNat

/-- The job with its pointers advanced and its count register replaced (R155, R156). -/
def StrJob.moved (j : StrJob) (d a : Nat) (b : Word) : StrJob :=
  { j with dv := advancePtr j.legacy j.dv d, av := advancePtr j.legacy j.av a, bv := TWord.plain b }

/-- The registers of a job written in cycle `due`: gd and ga where the instruction advances them, and gb (R156). -/
def strRegs (c : CoreId) (due : Nat) (wd wa : Bool) (j : StrJob) (s : State) : State :=
  let s := if wd then pushCap c due j.gd j.dv s else s
  let s := if wa then pushCap c due j.ga j.av s else s
  pushCap c due j.gb j.bv s

/-! ## Runs (R166, R171, R173) -/

/-- A string instruction as its run sees it, from its job: its units, the fixed term of its count and the cycles of j units (R166),
whether the final register values are reached within j units (R173), how far its registers move within j units, what it reads in unit
i, the job after j units, and what it leaves after j units, memory and registers, and where it is complete its flags, written in a cycle. -/
structure StrRun where
  n : Nat
  fixed : Nat
  cycles : Nat → Nat
  final : Nat → Bool
  moved : Nat → Nat := id
  reads : Nat → List Nat
  next : Nat → StrJob
  effect : Nat → Bool → Nat → State → State

/-- The first unit from i on and before j that reads a word with an uncorrectable error: that word (R268). -/
def StrRun.bad (r : StrRun) (i j : Nat) (s : State) : Option Nat :=
  if s.eccBad.isEmpty then none
  else ((List.range j).drop i).findSome? fun i => (r.reads i).findSome? fun a => eccHit s a 1

/-- The single-bit errors that units i to j - 1 meet, each word counted once in a span (R266; log entry 5). -/
def StrRun.soft (r : StrRun) (i j : Nat) (s : State) : State :=
  if s.eccSoft.isEmpty then s
  else
    let at_ := ((List.range j).drop i).flatMap r.reads
    (s.eccSoft.filter fun w => at_.any fun a => eccWord a == w).foldl (fun s _ => countCorrected s) s

/-- R158: the n bytes that a copy of distance d writes, from its source bytes. -/
def copyBytes (d n : Nat) (src : List Byte) : List Byte :=
  if 0 < d ∧ d < n then ((List.replicate (cdiv n d) (src.take d)).flatten).take n else src

/-- R158: the distance gd.ADDR - ga.ADDR of a copy, 0 where it does not overlap forward. -/
def copyDist (dst src n : Nat) : Nat := if src < dst ∧ dst < src + n then dst - src else 0

/-- MVB as a run (R157). -/
def mvbRun (s : State) (c : CoreId) (j : StrJob) : StrRun :=
  let d := ptrAt j.dv
  let a := ptrAt j.av
  let n := countOf j.bv
  let next (u : Nat) := j.moved u u (BitVec.ofNat 128 (n - u))
  { n := n, fixed := 6, cycles := fun u => cdiv u 16, final := fun _ => false, reads := fun i => [strAt c a + i], next := next,
    effect := fun u _ due s' =>
      strRegs c due true true (next u) (strPut (strAt c d) (copyBytes (copyDist d a n) u (s.bytes (strAt c a) u)) s') }

/-- The first position at which two byte lists differ, and their length where they do not. -/
def firstDiff : List Byte → List Byte → Nat
  | x :: xs, y :: ys => if x = y then firstDiff xs ys + 1 else 0
  | _, _ => 0

/-- R159: the flags of CLCB. -/
def clcbFlags (s : State) (x y : Nat) (differ : Bool) : BitVec 6 :=
  if differ then
    let lt := decide ((memGet s.mem x).toNat < (memGet s.mem y).toNat)
    flag fN lt ||| flag fC !lt
  else fZ ||| fC

/-- CLCB as a run (R159). -/
def clcbRun (s : State) (c : CoreId) (j : StrJob) : StrRun :=
  let d := strAt c (ptrAt j.dv)
  let a := strAt c (ptrAt j.av)
  let n := countOf j.bv
  let m := min n (firstDiff (s.bytes d n) (s.bytes a n))
  let next (u : Nat) := j.moved (min u m) (min u m) (BitVec.ofNat 128 (n - min u m))
  { n := n, fixed := 6, cycles := fun u => cdiv u 16, final := fun u => decide (m < u), reads := fun i => [d + i, a + i], next := next,
    effect := fun u fin due s =>
      let p := min u m
      let s := strRegs c due true true (next u) s
      if fin then pushFlags c due 15 (clcbFlags s (d + p) (a + p) (decide (p < n))) s else s }

/-- The first position of a list that holds a byte for which p holds, and its length where none does. -/
def firstWith (p : Byte → Bool) : List Byte → Nat
  | [] => 0
  | x :: xs => if p x then 0 else firstWith p xs + 1

/-- SCB as a run (R160). -/
def scbRun (s : State) (c : CoreId) (j : StrJob) : StrRun :=
  let d := strAt c (ptrAt j.dv)
  let n := countOf j.bv
  let b : Byte := j.av.val.setWidth 8
  let m := firstWith (fun x => x == b) (s.bytes d n)
  let next (u : Nat) := j.moved (min u m) 0 (BitVec.ofNat 128 (n - min u m))
  { n := n, fixed := 6, cycles := fun u => cdiv u 16, final := fun u => decide (m < u), reads := fun i => [d + i],
    next := fun u => { next u with av := j.av },
    effect := fun u fin due s =>
      let s := strRegs c due true false (next u) s
      if fin then pushFlags c due (fN ||| fZ) (flag fZ (decide (min u m < n))) s else s }

/-- R161: n bytes from d on translated in place by the table at `tab`, from left to right. -/
def translate (tab d : Nat) : Nat → State → State
  | 0, s => s
  | n + 1, s => translate tab (d + 1) n (strPut d [memGet s.mem (tab + (memGet s.mem d).toNat)] s)

/-- TRB as a run (R161). -/
def trbRun (s : State) (c : CoreId) (j : StrJob) : StrRun :=
  let d := strAt c (ptrAt j.dv)
  let tab := strAt c (ptrAt j.av)
  let n := countOf j.bv
  let next (u : Nat) := { j.moved u 0 (BitVec.ofNat 128 (n - u)) with av := j.av }
  { n := n, fixed := 6, cycles := fun u => cdiv u 8, final := fun _ => false,
    reads := fun i => [d + i, tab + (memGet s.mem (d + i)).toNat], next := next,
    effect := fun u _ due s => strRegs c due true false (next u) (translate tab d u s) }

/-- TRT as a run (R162). -/
def trtRun (s : State) (c : CoreId) (j : StrJob) : StrRun :=
  let d := strAt c (ptrAt j.dv)
  let tab := strAt c (ptrAt j.av)
  let n := countOf j.bv
  let look (b : Byte) : Byte := memGet s.mem (tab + b.toNat)
  let m := firstWith (fun b => look b != 0) (s.bytes d n)
  let next (u v : Nat) := { j.moved (min u m) 0 (BitVec.ofNat 128 (v * 2 ^ 32 + (n - min u m))) with av := j.av }
  { n := n, fixed := 6, cycles := fun u => cdiv u 8, final := fun u => decide (m < u),
    reads := fun i => [d + i, tab + (memGet s.mem (d + i)).toNat], next := fun u => next u 0,
    effect := fun u fin due s =>
      let p := min u m
      let v : Nat := if fin && decide (p < n) then (look (memGet s.mem (d + p))).toNat else 0
      let s := strRegs c due true false (next u v) s
      if fin then pushFlags c due (fN ||| fZ) (flag fZ (decide (p = n))) s else s }

/-! ## U8V (R163-R165) -/

/-- What U8V finds at a position (R163, R165): a code point and its length, or why it stops there, with the bytes that
show it. -/
inductive U8 where
  | point (cp len : Nat)
  | illFormed (seen : Nat)
  | cut (seen : Nat)
  deriving DecidableEq, Repr

/-- R163: the lengths, the range of byte 2 and the value bits that a first byte gives, none where it starts no
sequence. -/
def u8Lead (b : Nat) : Option (Nat × Nat × Nat × Nat) :=
  if b ≤ 0x7F then some (1, 0, 0, b)
  else if b < 0xC2 then none
  else if b ≤ 0xDF then some (2, 0x80, 0xBF, b - 0xC0)
  else if b = 0xE0 then some (3, 0xA0, 0xBF, 0)
  else if b = 0xED then some (3, 0x80, 0x9F, 0xD)
  else if b ≤ 0xEF then some (3, 0x80, 0xBF, b - 0xE0)
  else if b = 0xF0 then some (4, 0x90, 0xBF, 0)
  else if b ≤ 0xF3 then some (4, 0x80, 0xBF, b - 0xF0)
  else if b = 0xF4 then some (4, 0x80, 0x8F, 4)
  else none

/-- The continuation bytes of a sequence: k of them, the next one in a range, after `seen` bytes. -/
def u8Tail : Nat → Nat → Nat → Nat → Nat → List Byte → U8
  | 0, _, _, cp, seen, _ => .point cp seen
  | _ + 1, _, _, _, seen, [] => .cut seen
  | k + 1, lo, hi, cp, seen, b :: bs =>
    if lo ≤ b.toNat ∧ b.toNat ≤ hi then u8Tail k 0x80 0xBF (cp * 64 + (b.toNat - 0x80)) (seen + 1) bs
    else .illFormed (seen + 1)

/-- R163: the sequence at the front of the bytes that are left in the count. -/
def u8Next : List Byte → U8
  | [] => .cut 0
  | b :: bs =>
    match u8Lead b.toNat with
    | some (len, lo, hi, v) => u8Tail (len - 1) lo hi v 1 bs
    | none => .illFormed 1

/-- R164: the bytes that a mode writes for a code point, none where L1 cannot take it. -/
def u8Out (mode : BitVec 2) (cp : Nat) : Option (List Byte) :=
  if mode = 0 then some []
  else if mode = 1 then (if cp ≤ 0xFF then some [BitVec.ofNat 8 cp] else none)
  else if cp ≤ 0xFFFF then some (leBytes 2 cp)
  else some (leBytes 2 (0xD800 + (cp - 0x10000) / 1024) ++ leBytes 2 (0xDC00 + (cp - 0x10000) % 1024))

/-- U8V after some sequences: the source and destination positions, the flags of the stop with the bytes that show it,
and the state. -/
structure U8Run where
  src : Nat
  dst : Nat
  stop : Option (BitVec 6 × Nat)
  state : State

/-- U8V over the sequences that end within `limit` bytes (R164, R165); `a` and `d` are where the operands begin. -/
def u8Walk (mode : BitVec 2) (a d n limit : Nat) : Nat → U8Run → U8Run
  | 0, r => r
  | fuel + 1, r =>
    if n ≤ r.src then r
    else
      match u8Next (r.state.bytes (a + r.src) (min 4 (n - r.src))) with
      | .illFormed e => { r with stop := some (fC, e) }
      | .cut e => { r with stop := some (fV, e) }
      | .point cp len =>
        if limit < r.src + len then r
        else
          match u8Out mode cp with
          | none => { r with stop := some (0, len) }
          | some out =>
            let s := if out.isEmpty then r.state else strPut (d + r.dst) out r.state
            u8Walk mode a d n limit fuel { src := r.src + len, dst := r.dst + out.length, stop := none, state := s }

/-- U8V as a run. -/
def u8Run (s : State) (c : CoreId) (mode : BitVec 2) (j : StrJob) : StrRun :=
  let a := strAt c (ptrAt j.av)
  let d := strAt c (ptrAt j.dv)
  let n := countOf j.bv
  let walk (limit : Nat) (s : State) := u8Walk mode a d n limit n { src := 0, dst := 0, stop := none, state := s }
  let next (r : U8Run) := j.moved (if mode = 0 then 0 else r.dst) r.src (BitVec.ofNat 128 (n - r.src))
  { n := n, fixed := 6, cycles := fun u => cdiv u 8,
    final := fun u =>
      let r := walk u s
      (match r.stop with | some (_, e) => decide (r.src + e ≤ u) | none => false),
    moved := fun u => (walk u s).src, reads := fun i => [a + i], next := fun u => next (walk u s),
    effect := fun u fin due s =>
      let r := walk u s
      let s := strRegs c due (mode != 0) true (next r) r.state
      if fin then
        pushFlags c due 15 (match r.stop with | some (f, _) => f | none => fZ) s
      else s }

/-! ## EDB, EDM (R181-R183) -/

/-- The edit state of R182 as it runs. -/
structure Edit where
  sig : Bool
  mg : Bool
  dig : Nat
  mark : Nat
  deriving DecidableEq, Repr

/-- The next digit (R182). -/
def Edit.next (e : Edit) : Edit := { e with dig := if e.dig = 0 then 31 else if e.dig = 31 then 31 else e.dig - 1 }

/-- R181, R182: one pattern byte b at address p: the byte that replaces it, and the edit state after it. -/
def editByte (mark : Bool) (v : Nat) (minus : Bool) (fill : Byte) (p : Nat) (b : Byte) (e : Edit) : Byte × Edit :=
  if b = 0x18 ∨ b = 0x19 then
    let d := if e.dig = 31 then 0 else digitOf v e.dig
    if b = 0x19 ∨ e.sig ∨ d ≠ 0 then
      (BitVec.ofNat 8 (0x30 + d),
        { e with mg := false, sig := true, mark := if !e.sig && mark then p else e.mark }.next)
    else (fill, { e with mg := false }.next)
  else if b = 0x1A then (fill, { e with sig := false, mg := false })
  else if b = 0x1B then (fill, { e with mg := true })
  else if e.mg then (if minus then b else fill, e)
  else (if e.sig then b else fill, e)

/-- R182 over n pattern bytes: x is where they lie in device memory and p the address of the first. -/
def editWalk (mark : Bool) (v : Nat) (minus : Bool) (fill : Byte) : Nat → Nat → Nat → Edit → State → Edit × State
  | 0, _, _, e, s => (e, s)
  | n + 1, x, p, e, s =>
    let (b, e) := editByte mark v minus fill p (memGet s.mem x) e
    editWalk mark v minus fill n (x + 1) (p + 1) e (strPut x [b] s)

/-- The edit state that a count register holds at the start (R155, R182). With RUN = 1 the MARK found is kept, by EDB too, as the pseudocode has
it, though the text leaves EDB's MARK at 0 (DEDUCED, log entry 112). -/
def editStart (w : Nat) : Edit :=
  if w.testBit 57 then
    { sig := w.testBit 56, mg := w.testBit 53, dig := field w 48 5, mark := field w 76 52 }
  else { sig := false, mg := false, dig := field w 48 5, mark := 0 }

/-- The count register of EDB and EDM (R155). -/
def editWord (fill : Nat) (run : Bool) (e : Edit) (n : Nat) : Word :=
  BitVec.ofNat 128 (e.mark % 2 ^ 52 * 2 ^ 76 + (if run then 2 ^ 57 else 0) + (if e.sig then 2 ^ 56 else 0) +
    (if e.mg then 2 ^ 53 else 0) + e.dig * 2 ^ 48 + fill * 2 ^ 40 + n)

/-- The cause and the flags of EDB and EDM with an invalid value, at completion (R183, R146). -/
def editBad (c : CoreId) (due : Nat) (fin : Bool) (s : State) : State :=
  if !fin then s
  else
    let k := s.core c
    causeIf (causeEnabled k.regs.dctl k.x.status cDecData) c cDecData (pushFlags c due (fDX ||| fDV) fDX s)

/-- EDB and EDM as a run; `mark` is EDM's. -/
def editRun (s : State) (c : CoreId) (mark : Bool) (j : StrJob) : StrRun :=
  let p := ptrAt j.dv
  let x := strAt c p
  let w := j.bv.val.toNat
  let n := w % 2 ^ 32
  let v := j.av.val
  let fill := field w 40 8
  let walk (u : Nat) (minus : Bool) (s : State) := editWalk mark v.toNat minus (BitVec.ofNat 8 fill) u x p (editStart w) s
  let next (u : Nat) (fin : Bool) (e : Edit) := { j.moved u 0 (editWord fill (!fin) e (n - u)) with av := j.av }
  { n := n, fixed := 10, cycles := fun u => 2 * u, final := fun _ => false,
    moved := fun u => if (decRead v).isSome then u else 0, reads := fun i => if (decRead v).isSome then [x + i] else [],
    next := fun u => match decRead v with
      | none => j
      | some d => next u false (walk u d.minus s).1,
    effect := fun u fin due s =>
      match decRead v with
      | none => editBad c due fin s
      | some d =>
        let (e, s) := walk u d.minus s
        let s := strRegs c due true false (next u fin e) s
        if fin then pushFlags c due (fN ||| fZ ||| fDX) (flag fZ (d.mag == 0) ||| flag fN (d.minus && d.mag != 0)) s
        else s }

/-- The run of a job: MVB's for the instructions that have none of their own. -/
def StrJob.run (j : StrJob) (s : State) (c : CoreId) : StrRun :=
  match j.op with
  | .clcb => clcbRun s c j
  | .scb => scbRun s c j
  | .trb => trbRun s c j
  | .trt => trtRun s c j
  | .u8v mode => u8Run s c mode j
  | .edit mark => editRun s c mark j
  | _ => mvbRun s c j

/-! ## From point to point (R166, R171-R173) -/

/-- The units up to which a run goes from a point: 64 on, or to its end (R166). -/
def StrRun.upto (r : StrRun) (ahead : Nat) : Nat := if r.n ≤ ahead + 64 then r.n else ahead + 64

/-- The points of R166 after the one in cycle x with n units left, and the end. -/
def latePoints (r : StrRun) (x n : Nat) : List Nat :=
  (((List.range (cdiv n 64)).drop 1).map fun i => x + r.cycles (64 * i)) ++ [x + r.cycles n]

/-- The core waits for what comes about in cycle x, and can go on from cycle a. -/
def strWait (c : CoreId) (x rank a : Nat) (j : StrJob) (s : State) : State :=
  (schedule c x rank (.string j) s).modSeq c fun q => { q with nextIssue := a, hold := none, str := none }

/-- A string instruction from its issue in cycle t (`lead`) or from a point in cycle t: the cycle in which it next acts, and the next
boundary (R166, R167, R189). -/
def strGo (c : CoreId) (t : Nat) (lead : Bool) (j : StrJob) (s : State) : State :=
  let s := if lead then s.modSeq c fun q => { q with deAt := t } else s
  match j.op with
  | .fldw _ _ _ _ none => strWait c (t + 11) 1 (t + 12) j s
  | .fldw _ _ _ _ (some _) => strWait c (t + 8) 1 (t + 9) j s
  | .mvblOut _ _ => let x := if lead then t + 6 else t
    strWait c x 0 x j s
  | _ =>
    let r := j.run s c
    let cost := (if lead then r.fixed else 0) + r.cycles (r.upto j.ahead - j.ahead)
    strWait c (t + cost - 1) 1 (t + cost) j s

/-- A string instruction reaches the point in cycle a with work left (R171). -/
def strPoint (c : CoreId) (a : Nat) (j : StrJob) (s : State) : State :=
  s.modSeq c fun q => { q with nextIssue := a, noAccept := false, str := some (.work j) }

/-- A string instruction is complete, `cost` cycles after cycle x; the next one reached DE as it issued (R54, R57, R166). -/
def strDone (c : CoreId) (x cost : Nat) (s : State) : State :=
  let q := (s.core c).seq
  (finish c x cost q s).modSeq c fun r => { r with deAt := q.deAt }

/-- The last cycle x before the next point of a run, or before its end (R166, R171, R173). -/
def StrRun.span (r : StrRun) (c : CoreId) (x : Nat) (j : StrJob) (s : State) : State :=
  let u := r.upto j.ahead
  let a := x + 1
  let s := match r.bad j.ahead u s with
    | some w => consumedEcc c a 3 w s
    | none => s
  let s := r.soft j.ahead u s
  if u = r.n then strDone c x (1 + j.extra) (r.effect u true a s)
  else if r.final u then
    (strDone c x 1 (r.effect u true a s)).modSeq c fun q => { q with str := some (.spent (latePoints r a (r.n - u))) }
  else strPoint c a { r.next u with ahead := u - r.moved u } (r.effect u false a s)

/-! ## FLDW (R184-R189) -/

/-- The value of a bitmap character (R187): BMENC 1 ASCII, 2 EBCDIC. -/
def hexChar (enc b : Nat) : Option Nat :=
  if enc = 1 then
    if 0x30 ≤ b ∧ b ≤ 0x39 then some (b - 0x30)
    else if 0x41 ≤ b ∧ b ≤ 0x46 then some (b - 0x41 + 10)
    else if 0x61 ≤ b ∧ b ≤ 0x66 then some (b - 0x61 + 10)
    else none
  else
    if 0xF0 ≤ b ∧ b ≤ 0xF9 then some (b - 0xF0)
    else if 0xC1 ≤ b ∧ b ≤ 0xC6 then some (b - 0xC1 + 10)
    else if 0x81 ≤ b ∧ b ≤ 0x86 then some (b - 0x81 + 10)
    else none

/-- The number that bitmap characters spell, none on another character. -/
def hexVal (enc : Nat) (bs : List Byte) : Option Nat :=
  bs.foldl (fun acc b => match acc, hexChar enc b.toNat with | some x, some d => some (16 * x + d) | _, _ => none) (some 0)

/-- R187: the 64 bits of a bitmap at an offset of the message, or its stop. -/
def readBitmap (s : State) (m len enc off : Nat) : Except Nat Nat :=
  let bl := if enc = 0 then 8 else 16
  if len < off + bl then .error 1
  else
    let bs := s.bytes (m + off) bl
    if enc = 0 then .ok (ofBe bs)
    else match hexVal enc bs with
      | some v => .ok v
      | none => .error 5

/-- R187: the bitmaps as 128 bits, bit 1 the most significant, or the stop. -/
def readBitmaps (s : State) (m len enc : Nat) : Except Nat Nat :=
  if enc = 3 then .error 6
  else match readBitmap s m len enc 0 with
    | .error e => .error e
    | .ok p =>
      if p.testBit 63 then
        match readBitmap s m len enc (if enc = 0 then 8 else 16) with
        | .error e => .error e
        | .ok q => .ok (p * 2 ^ 64 + q)
      else .ok (p * 2 ^ 64)

/-- The bytes of the message that the bitmaps take (R187). -/
def bitmapBytes (s : State) (m len enc : Nat) : Nat :=
  let bl := if enc = 0 then 8 else 16
  if enc = 3 ∨ len < bl then 0
  else match readBitmap s m len enc 0 with
    | .ok p => if p.testBit 63 then (if len < 2 * bl then bl else 2 * bl) else bl
    | .error _ => bl

/-- R186: the value of a length prefix, none where it is invalid. -/
def prefixVal (penc pfx : Nat) (bs : List Byte) : Option Nat :=
  let digit (lo : Nat) (acc : Option Nat) (b : Byte) : Option Nat :=
    match acc with
    | some x => if lo ≤ b.toNat ∧ b.toNat ≤ lo + 9 then some (10 * x + (b.toNat - lo)) else none
    | none => none
  match penc with
  | 0 => bs.foldl (digit 0x30) (some 0)
  | 1 => bs.foldl (digit 0xF0) (some 0)
  | 2 =>
    let v := ofBe bs
    if allDigits (2 * bs.length) v && !(pfx == 2 && decide (0x1000 ≤ v)) then some (digitsVal (2 * bs.length) v) else none
  | _ =>
    let v := ofBe bs
    if v ≤ (if pfx = 1 then 99 else if pfx = 2 then 999 else 9999) then some v else none

/-- The bytes of a length prefix (R186). -/
def prefixSize (penc pfx : Nat) : Nat := if penc < 2 then pfx + 1 else if pfx = 1 then 1 else 2

/-- R185, R187: whether a descriptor holds a reserved value. -/
def descReserved (e : Nat) : Bool :=
  let kind := field e 30 2
  let pfx := field e 28 2
  kind == 3 || decide (2 ≤ field e 24 2) || field e 16 8 != 0 || (if kind = 2 then pfx == 0 else pfx != 0)

/-- R187: the length in bytes and the offset of a field at pos by its descriptor, or the stop. -/
def readField (s : State) (m len e pos : Nat) : Except Nat (Nat × Nat) :=
  let kind := field e 30 2
  let place (l q : Nat) : Except Nat (Nat × Nat) :=
    let nb := if field e 24 2 = 1 then cdiv l 2 else l
    if len < q + nb then .error 1 else .ok (nb, q)
  if kind = 0 then .error 4
  else if descReserved e then .error 6
  else if kind = 1 then place (field e 0 16) pos
  else
    let penc := field e 26 2
    let pfx := field e 28 2
    let n := prefixSize penc pfx
    if len < pos + n then .error 1
    else match prefixVal penc pfx (s.bytes (m + pos) n) with
      | none => .error 2
      | some l => if field e 0 16 < l then .error 3 else place l (pos + n)

/-- The parse state that FLDW writes (R184). -/
def fldwWord (stop enc fld pos : Nat) : Word := BitVec.ofNat 128 (stop * 2 ^ 32 + enc * 2 ^ 24 + fld * 2 ^ 16 + pos)

/-- The table entries of the bitmaps that FLDW writes as it starts (R187). -/
def putBitmaps (o bl : Nat) (second : Bool) (s : State) : State :=
  let s := strPut o (leBytes 4 (bl * 65536)) s
  if second then strPut (o + 4) (leBytes 4 (bl * 65536 + bl)) s else s

/-- FLDW ends at the end of cycle x with STOP, FIELD and POS (R184, R188). -/
def fldwEnd (c : CoreId) (x : Nat) (gd : Reg) (stop enc fld pos : Nat) (s : State) : State :=
  strDone c x 1 (pushFlags c (x + 1) (fN ||| fZ) (flag fZ (stop == 0)) (pushReg c (x + 1) (pairReg gd) (fldwWord stop enc fld pos) s))

/-- The fields that are still to be processed (R187). -/
def fldwTodo (bm fld : Nat) : List Nat :=
  (List.range 129).filter fun x => decide (2 ≤ x) && decide (fld ≤ x) && bm.testBit (128 - x)

/-- FLDW reads the bitmaps, once, in cycle x, and writes entries 0 and 1; a stop in the bitmaps leaves FIELD = 0 (R187-R189). -/
def fldwStart (c : CoreId) (x len enc fld pos : Nat) (j : StrJob) (s : State) : State :=
  let m := strAt c (ptrAt j.dv)
  let s := consume c (x + 1) 3 m (bitmapBytes s m len enc) s
  match readBitmaps s m len enc with
  | .error e => fldwEnd c x j.gd e enc 0 pos s
  | .ok bm =>
    let bl := if enc = 0 then 8 else 16
    let second := bm.testBit 127
    let s := putBitmaps (strAt c (ptrAt j.bv)) bl second s
    let pos := if fld = 0 then (if second then 2 * bl else bl) else pos
    let fld := if fld = 0 then 2 else fld
    if (fldwTodo bm fld).isEmpty then fldwEnd c x j.gd 0 enc 129 pos s
    else strGo c (x + 1) false { j with op := .fldw len enc fld pos (some bm) } s

/-- The bytes of the message that a field's length prefix takes, where its descriptor has one (R186, R187). -/
def prefixBytes (e left : Nat) : Nat :=
  let n := prefixSize (field e 26 2) (field e 28 2)
  if descReserved e || field e 30 2 != 2 || decide (left < n) then 0 else n

/-- FLDW processes its next field in cycle x (R187, R189). At the point after a field, STOP is written as 0 (DESIGN CHOICE, log
entry 97). -/
def fldwField (c : CoreId) (x len enc fld pos bm : Nat) (j : StrJob) (s : State) : State :=
  match fldwTodo bm fld with
  | [] => fldwEnd c x j.gd 0 enc 129 pos s
  | i :: rest =>
    let d := strAt c (ptrAt j.av) + 4 * i
    let s := consume c (x + 1) 3 d 4 s
    let s := consume c (x + 1) 3 (strAt c (ptrAt j.dv) + pos) (prefixBytes (ofLe (s.bytes d 4)) (len - pos)) s
    match readField s (strAt c (ptrAt j.dv)) len (ofLe (s.bytes d 4)) pos with
    | .error e => fldwEnd c x j.gd e enc i pos s
    | .ok (nb, q) =>
      let s := strPut (strAt c (ptrAt j.bv) + 4 * i) (leBytes 4 (nb * 65536 + q)) s
      if rest.isEmpty then fldwEnd c x j.gd 0 enc 129 (q + nb) s
      else strPoint c (x + 1) { j with op := .fldw len enc (i + 1) (q + nb) (some bm) }
        (pushReg c (x + 1) (pairReg j.gd) (fldwWord 0 enc (i + 1) (q + nb)) s)

/-! ## MVBL from LDS or the LIS to the global scratchpad (R167, R174, R175) -/

/-- The block write of bytes [lo, hi) of a destination, with the bytes around it absent. -/
def blockImage (lo at_ : Nat) (bs : List Byte) : List (Option Byte) :=
  List.replicate (at_ + lo - (at_ + lo) / 64 * 64) none ++ bs.map some

/-- A precise cause is raised at the boundary in cycle a, once what is due there before it has been taken (R174, R223, R305, R306). -/
def trapAt (c : CoreId) (a : Nat) (q : Trap) (s : State) : State :=
  s.modCore c fun k => { k with seq := { k.seq with nextIssue := a, trap := some (q.cause k) } }

/-- The check of a block of an MVBL in the cycle in which it is issued: a key byte that cannot be read, or a refusal (R174, R268, R285). -/
def blockCheck (c : CoreId) (key : BitVec 4) (store : Bool) (a n reg : Nat) (s : State) : Option Trap :=
  match keyByteBad s c.val key a n, keyRefusal s key store a n with
  | some p, _ => some (keyCheck p)
  | none, some p => some (capTrap cKey p reg)
  | none, none => none

/-- The next destination block of an MVBL from LDS or the LIS is checked and issued in cycle x; the point after it follows (R167, R174). -/
def mvblOut (c : CoreId) (x : Nat) (key : BitVec 4) (reg : Nat) (j : StrJob) (s : State) : State :=
  let d := ptrAt j.dv
  let n := countOf j.bv
  let src := strAt c (ptrAt j.av)
  let hi := blockBytes d n 1
  match blockCheck c key true d hi reg s with
  | some q => trapAt c (x + 1) q s
  | none =>
    let s := softKeys c.val key d hi (consume c (x + 4) 3 src hi s)
    let s := sendBlock c (s.core c).pc (s.core c).seq.wseq x (d / 64 * 64) (blockImage 0 d (s.bytes src hi)) key j.base s
    let j := j.moved hi hi (BitVec.ofNat 128 (n - hi))
    let s := strRegs c (x + 4) true true j s
    if n ≤ hi then strDone c x 4 s else strPoint c (x + 4) j s

/-- What a string instruction does in cycle x. -/
def strAct (c : CoreId) (x : Nat) (j : StrJob) (s : State) : State :=
  match j.op with
  | .fldw len enc fld pos none => fldwStart c x len enc fld pos j s
  | .fldw len enc fld pos (some bm) => fldwField c x len enc fld pos bm j s
  | .mvblOut key reg => mvblOut c x key reg j s
  | _ => (j.run s c).span c x j s

/-! ## MVBL from the global scratchpad (R157, R167, R174, R175) -/

/-- MVBL's registers after p bytes, written in cycle `due` (R157, R174). -/
def mvblRegs (c : CoreId) (due : Nat) (legacy : Bool) (gd ga gb : Reg) (dv sv : TWord) (n p : Nat) (s : State) : State :=
  pushReg c due gb (BitVec.ofNat 128 (n - p)) (pushPtr c due legacy ga sv p (pushPtr c due legacy gd dv p s))

/-- MVBL ends without completing: its outstanding block reads are discarded (R174). -/
def mvblDrop (c : CoreId) (s : State) : State :=
  s.modMs c fun m =>
    { m with mvbl := none, blocks := m.blocks.filter (·.toVec),
             freqs := m.freqs.filter fun r => match r.kind with
               | .blockRead b => m.blocks.any fun x => x.toVec && x.bid == b
               | _ => true }

/-- R174: the bytes up to the last source block all of whose bytes have been written. -/
def mvblProgress (j : Mvbl) : Nat :=
  (((List.range (j.done + 1)).map fun k => blockBytes j.src j.len k).filter (· ≤ j.wrote)).foldl max 0

/-- What an interruption leaves behind in cycle t: an MVBL from the global scratchpad writes its registers and discards its
block reads (R171, R174); the registers of any other string instruction describe its work already. -/
def leavePoint (c : CoreId) (t : Nat) (s : State) : State :=
  match (s.core c).ms.mvbl with
  | none => s
  | some j => mvblDrop c (mvblRegs c t j.legacy j.gd j.ga j.gb j.dv j.sv j.len (mvblProgress j) s)

/-- The cycle in which source block k of an MVBL is read (R167). -/
def mvblSent (t k : Nat) : Nat := t + 6 + 104 * (k / 8) + 4 * (k % 8)

/-- R174: KEY_MISMATCH, or the MACHINE_CHECK of a key byte, of an MVBL at the boundary in cycle a, with the registers at its progress. -/
def mvblRefuse (c : CoreId) (a : Nat) (j : Mvbl) (q : Trap) (s : State) : State :=
  let n := mvblProgress j
  let s := if n = 0 then s else mvblRegs c a j.legacy j.gd j.ga j.gb j.dv j.sv j.len n s
  trapAt c a q (mvblDrop c s)

/-- Source block k of an MVBL is to be read in this cycle, x: where the key rule passes, one request, sent once for a pair; a refused
block is met when the blocks before it have been written (R167, R174, R175). -/
def mvblRead (c : CoreId) (x k : Nat) (s : State) : State :=
  match (s.core c).ms.mvbl with
  | none => s
  | some j =>
    if j.refused.isSome || blocksOf j.src j.len ≤ k then s
    else
      let (lo, hi) := blockSpan j.src j.len k
      match blockCheck c j.skey false (j.src + lo) (hi - lo) j.sreg s with
      | some q =>
        if k = 0 then mvblRefuse c (x + 1) j q s
        else s.modMs c fun m => { m with mvbl := some { j with refused := some (k, q.code == codeMachine, q.xaddr) } }
      | none => sendBlockRead c x (j.src + lo) j.skey j.base false (softKeys c.val j.skey (j.src + lo) (hi - lo) s)

/-- Source block k of an MVBL has been written: a refused block, the end or an interruption point is met (R167, R171, R174). -/
def mvblAfter (c : CoreId) (k : Nat) (s : State) : State :=
  match (s.core c).ms.mvbl with
  | none => s
  | some j =>
    let a := mvblSent j.start k + 108
    if k + 1 = blocksOf j.src j.len then
      let s := s.modMs c fun m => { m with mvbl := none }
      finish c j.start (a - j.start) (s.core c).seq (mvblRegs c a j.legacy j.gd j.ga j.gb j.dv j.sv j.len j.len s)
    else
      match j.refused with
      | some (r, byte, p) =>
        if r = k + 1 then mvblRefuse c a j (if byte then keyCheck p.toNat else capTrap cKey p.toNat j.sreg) s else mvblPoint a s
      | none => mvblPoint a s
where
  /-- The point after a source block. -/
  mvblPoint (a : Nat) (s : State) : State := s.modSeq c fun q => { q with nextIssue := a, noAccept := false, str := some .block }

/-- Whether source block k of an MVBL completes a further destination block. -/
def mvblMore (j : Mvbl) (k : Nat) : Bool :=
  let i := (j.dst + j.wrote) / 64 - j.dst / 64
  decide (i < blocksOf j.dst j.len) && decide ((blockSpan j.dst j.len i).2 ≤ (blockSpan j.src j.len k).2)

/-- The next destination block whose last source byte came with source block k is checked and issued in cycle x, and a further one in
the next cycle (R167, R174). -/
def mvblSend (c : CoreId) (x k : Nat) (s : State) : State :=
  match (s.core c).ms.mvbl with
  | none => s
  | some j =>
    let i := (j.dst + j.wrote) / 64 - j.dst / 64
    let (lo, hi) := blockSpan j.dst j.len i
    match (if mvblMore j k then blockCheck c j.dkey true (j.dst + lo) (hi - lo) j.dreg s else none) with
    | some q => mvblRefuse c (x + 1) j q s
    | none =>
      if !mvblMore j k then mvblAfter c k s
      else
        let data := copyBytes (copyDist j.dst j.src j.len) j.len j.got
        let s := softKeys c.val j.dkey (j.dst + lo) (hi - lo) s
        let j := { j with wrote := hi }
        let s := sendBlock c (s.core c).pc (s.core c).seq.wseq x ((j.dst + lo) / 64 * 64) (blockImage lo j.dst (slice data lo (hi - lo))) j.dkey j.base s
        let s := s.modMs c fun m => { m with mvbl := some j }
        if mvblMore j k then schedule c (x + 1) 0 (.mvblSend k) s else mvblAfter c k s

/-- The return of block b, for which MVBL j waits, in cycle x: the next block goes out, and the bytes are written in the 4 cycles that
follow, into LDS or the LIS in the last of them (R167; log entry 53). -/
def mvblNext (c : CoreId) (b : BlockRead) (data : List Byte) (j : Mvbl) (s : State) : State :=
  let k := j.done
  let x := b.sent + 104
  let (lo, hi) := blockSpan j.src j.len k
  let j := { j with done := k + 1, got := j.got ++ data }
  let s := match b.bad with | some w => consumedEcc c (x + 4) 3 w s | none => s
  let s := s.modMs c fun m => { m with mvbl := some j }
  let s := mvblRead c x (k + 8) s
  if inGlobal j.dst 1 then mvblSend c x k s
  else
    let data := copyBytes (copyDist j.dst j.src j.len) j.len j.got
    let s := schedule c (x + 3) 1 (.put (strAt c j.dst + lo) (slice data lo (hi - lo)) none) s
    mvblAfter c k (s.modMs c fun m => { m with mvbl := m.mvbl.map fun j => { j with wrote := hi } })

/-- MVBL from the global scratchpad begins in cycle t: its first 8 block reads follow (R167). -/
def mvblLoad (c : CoreId) (t : Nat) (gd ga gb : Reg) (d a : Auth) (n : Nat) (s : State) : State :=
  let k := s.core c
  let j : Mvbl :=
    { gd := gd, ga := ga, gb := gb, start := t, dv := k.reg gd, sv := k.reg ga, legacy := k.legacy, base := k.atBase,
      dst := d.ea, src := a.ea, len := n, dkey := capKey d.cap.val, skey := capKey a.cap.val, dreg := d.reg, sreg := a.reg,
      done := 0, wrote := 0, refused := none, got := [] }
  let s := (s.modMs c fun m => { m with mvbl := some j }).modSeq c fun q => { q with nextIssue := t + 7, hold := none }
  (List.range (min 8 (blocksOf a.ea n))).foldl (fun s i => schedule c (mvblSent t i) 0 (.mvblRead i) s) s

end Sys2Proof.Machine
end

