-- ==== Sys2Proof/Machine/VectorMem.lean ====
section
/-! DEFINITION. What the Rand unit does beat by beat (R197-R219): the lanes, the results of an entry, its loads and stores in LDS and in
the global scratchpad, and the lanes of gather and scatter (R220-R224). -/
namespace Sys2Proof.Machine

/-! ## Lanes (R45, R197) -/

/-- The width of a lane (R194). -/
def eltBits : VElt → Nat
  | .byte => 8
  | .half => 16
  | .word => 32
  | .dbl => 64
  | .quad => 128

/-- The code of a lane width in an opcode or an ET field (R194, R195). -/
def eltCode : VElt → Nat
  | .byte => 0
  | .half => 1
  | .word => 2
  | .dbl => 3
  | .quad => 4

/-- Lane i of a w register at width w. -/
def lane (w : Nat) (v : BitVec 4096) (i : Nat) : Nat := field v.toNat (w * i) w

/-- A w register with lane i replaced. -/
def setLane (w : Nat) (v : BitVec 4096) (i x : Nat) : BitVec 4096 :=
  (v &&& ~~~(BitVec.ofNat 4096 (2 ^ w - 1) <<< (w * i))) ||| (BitVec.ofNat 4096 (x % 2 ^ w) <<< (w * i))

/-- The processed lanes: active and set in the mask (R197). -/
def processed (n : Nat) (km : BitVec 512) : List Nat := (List.range n).filter fun i => km.getLsbD i

/-- R197: the processed lanes of a register replaced by the values of f. -/
def mapLanes (w n : Nat) (km : BitVec 512) (old : BitVec 4096) (f : Nat → Nat) : BitVec 4096 :=
  (processed n km).foldl (fun v i => setLane w v i (f i)) old

/-- R198: a compare's mask: bits of active lanes are its results under km, the others stay. -/
def maskBits (n : Nat) (km old : BitVec 512) (f : Nat → Bool) : BitVec 512 :=
  (List.range n).foldl (fun k i => putBit k i (km.getLsbD i && f i)) old

/-- R199: a mask with the bits of some lanes cleared. -/
def clearBits (km : BitVec 512) (l : List Nat) : BitVec 512 := l.foldl (fun k i => putBit k i false) km

/-- A mask register; k0 reads all ones (R49). -/
def kreg (r : Regs) (k : KReg) : BitVec 512 := if k = 0 then BitVec.allOnes 512 else r.k[k]

/-- A mask register written; a write to k0 is ignored (R49). -/
def setK (r : Regs) (k : KReg) (v : BitVec 512) : Regs := if k = 0 then r else { r with k := r.k.set k v }

/-- A w register written. -/
def setW (r : Regs) (d : Reg) (v : BitVec 4096) : Regs := { r with w := r.w.set d v }

/-! ## What the beats of an entry do (R207-R215) -/

/-- The registers after an entry, the general register it writes and the flags it raises. -/
structure VOut where
  regs : Regs
  g : Option (Reg × Word)
  fp : BitVec 5

/-- An entry that writes vector registers only. -/
def vOut (r : Regs) : VOut := { regs := r, g := none, fp := 0 }

/-- An integer lane operation of width w (R207). -/
def vInt (e : VEntry) (w : Nat) (vd va vb : Reg) (km : KReg) (f : Nat → Nat → Nat) (r : Regs) : VOut :=
  vOut (setW r vd (mapLanes w (e.vle / w) (kreg r km) r.w[vd] fun i => f (lane w r.w[va] i) (lane w r.w[vb] i)))

/-- An integer lane compare of width w (R198, R207). -/
def vCmp (e : VEntry) (w : Nat) (kd : KReg) (va vb : Reg) (km : KReg) (f : Nat → Nat → Bool) (r : Regs) : VOut :=
  vOut (setK r kd (maskBits (e.vle / w) (kreg r km) (kreg r kd) fun i => f (lane w r.w[va] i) (lane w r.w[vb] i)))

/-- A binary32 lane operation; `f` takes the lanes of va, vb and vd (R208). -/
def vFp (e : VEntry) (vd va vb : Reg) (km : KReg) (f : BitVec 32 → BitVec 32 → BitVec 32 → FpOut) (r : Regs) : VOut :=
  let at_ (x : Reg) (i : Nat) : BitVec 32 := BitVec.ofNat 32 (lane 32 r.w[x] i)
  let out (i : Nat) : FpOut := f (at_ va i) (at_ vb i) (at_ vd i)
  let n := e.vle / 32
  { regs := setW r vd (mapLanes 32 n (kreg r km) r.w[vd] fun i => (out i).v.toNat), g := none,
    fp := (processed n (kreg r km)).foldl (fun x i => x ||| (out i).classes) 0 }

/-- A binary32 lane compare: a NaN gives 0 (R208). -/
def vFpCmp (e : VEntry) (kd : KReg) (va vb : Reg) (km : KReg) (f : Ordering → Bool) (r : Regs) : VOut :=
  let at_ (x : Reg) (i : Nat) : Fp := fpRead (fpDAZ e.fpctl) (BitVec.ofNat 32 (lane 32 r.w[x] i))
  let n := e.vle / 32
  let res (i : Nat) : Bool := match fpRel (at_ va i) (at_ vb i) with | some o => f o | none => false
  { regs := setK r kd (maskBits n (kreg r km) (kreg r kd) res), g := none,
    fp := (processed n (kreg r km)).foldl (fun x i => x ||| fpSnans (at_ va i) (at_ vb i)) 0 }

/-- A decimal lane (R24, R25). -/
def decLane (v : BitVec 4096) (i : Nat) : Option Dec := decRead (BitVec.ofNat 128 (lane 128 v i))

/-- A decimal lane operation: `f` gives none for an invalid operand; an invalid lane stays, and it and an overflow clear
the mask bit (R199, R209, R212). -/
def vDec (e : VEntry) (vd : Reg) (km : KReg) (f : Nat → Option DecOut) (r : Regs) : VOut :=
  let n := e.vle / 128
  let m := kreg r km
  let good := processed n m |>.filter fun i => (f i).isSome
  let v := good.foldl (fun v i => match f i with
    | some { r0 := some w, .. } => setLane 128 v i w.toNat
    | _ => v) r.w[vd]
  let bad := (processed n m).filter fun i => match f i with
    | some o => o.vals.getLsbD 5
    | none => true
  vOut (setK (setW r vd v) km (clearBits m bad))

/-- A decimal lane compare (R211). -/
def vDecCmp (e : VEntry) (kd : KReg) (va vb : Reg) (km : KReg) (f : Int → Int → Bool) (r : Regs) : VOut :=
  let n := e.vle / 128
  let m := kreg r km
  let both (i : Nat) : Option (Dec × Dec) :=
    match decLane r.w[va] i, decLane r.w[vb] i with
    | some a, some b => some (a, b)
    | _, _ => none
  let res (i : Nat) : Bool := match both i with | some (a, b) => f a.val b.val | none => false
  let r' := setK r kd (maskBits n m (kreg r kd) res)
  vOut (setK r' km (clearBits m ((processed n m).filter fun i => (both i).isNone)))

/-- VDSUM (R213). -/
def vDecSum (e : VEntry) (vd va : Reg) (km : KReg) (r : Regs) : VOut :=
  let n := e.vle / 128
  let m := kreg r km
  let ds := (processed n m).filterMap fun i => decLane r.w[va] i
  let sum : Int := (ds.map Dec.val).foldl (· + ·) 0
  let natural := !ds.isEmpty && ds.all Dec.minus
  let word := decWord (dcKZ e.dctl) sum natural
  let ovf := decide (ten31 ≤ sum.natAbs)
  let bad := if ovf then List.range n else (processed n m).filter fun i => (decLane r.w[va] i).isNone
  vOut (setK (setW r vd (setLane 128 r.w[vd] 0 word.toNat)) km (clearBits m bad))

/-- A mask operation over all 512 bits (R200). -/
def vMask (kd ka kb : KReg) (f : BitVec 512 → BitVec 512 → BitVec 512) (r : Regs) : VOut :=
  vOut (setK r kd (f (kreg r ka) (kreg r kb)))

/-- What the beats of an entry do to the registers; loads and stores move their bytes elsewhere. -/
def vecEffect (e : VEntry) (r : Regs) : VOut :=
  let c := e.fpctl
  let rd (b : BitVec 32) : Fp := fpRead (fpDAZ c) b
  let sg (w x : Nat) : Int := toSigned w x
  match e.instr with
  | .vadd _ _ z d a b m => vInt e (eltBits z) d a b m (fun x y => x + y) r
  | .vsub _ _ z d a b m => vInt e (eltBits z) d a b m (fun x y => x + 2 ^ (eltBits z) - y) r
  | .vmul _ _ z d a b m => vInt e (eltBits z) d a b m (fun x y => x * y) r
  | .vand _ _ z d a b m => vInt e (eltBits z) d a b m (fun x y => x &&& y) r
  | .vor _ _ z d a b m => vInt e (eltBits z) d a b m (fun x y => x ||| y) r
  | .vxor _ _ z d a b m => vInt e (eltBits z) d a b m (fun x y => x ^^^ y) r
  | .vsll _ _ z d a b m => vInt e (eltBits z) d a b m (fun x y => (shiftOut .sll (eltBits z) x (y % 256)).d) r
  | .vsrl _ _ z d a b m => vInt e (eltBits z) d a b m (fun x y => (shiftOut .srl (eltBits z) x (y % 256)).d) r
  | .vsra _ _ z d a b m => vInt e (eltBits z) d a b m (fun x y => (shiftOut .sra (eltBits z) x (y % 256)).d) r
  | .vmin _ _ z d a b m => vInt e (eltBits z) d a b m (fun x y => if sg (eltBits z) x < sg (eltBits z) y then x else y) r
  | .vmax _ _ z d a b m => vInt e (eltBits z) d a b m (fun x y => if sg (eltBits z) x < sg (eltBits z) y then y else x) r
  | .vminu _ _ z d a b m => vInt e (eltBits z) d a b m (fun x y => min x y) r
  | .vmaxu _ _ z d a b m => vInt e (eltBits z) d a b m (fun x y => max x y) r
  | .vcmpeq _ _ z d a b m => vCmp e (eltBits z) d a b m (fun x y => x == y) r
  | .vcmplt _ _ z d a b m => vCmp e (eltBits z) d a b m (fun x y => decide (sg (eltBits z) x < sg (eltBits z) y)) r
  | .vcmpltu _ _ z d a b m => vCmp e (eltBits z) d a b m (fun x y => decide (x < y)) r
  | .vfadd _ _ d a b m => vFp e d a b m (fun x y _ => fpAdd c (rd x) (rd y)) r
  | .vfsub _ _ d a b m => vFp e d a b m (fun x y _ => fpAdd c (rd x) (rd y).flip) r
  | .vfmul _ _ d a b m => vFp e d a b m (fun x y _ => fpMul c (rd x) (rd y)) r
  | .vffma _ _ d a b m => vFp e d a b m (fun x y z => fpFma c (rd x) (rd y) (rd z)) r
  | .vfmin _ _ d a b m => vFp e d a b m (fun x y _ => fpMinMax c false x y) r
  | .vfmax _ _ d a b m => vFp e d a b m (fun x y _ => fpMinMax c true x y) r
  | .vfcmpeq _ _ d a b m => vFpCmp e d a b m (fun o => o == .eq) r
  | .vfcmplt _ _ d a b m => vFpCmp e d a b m (fun o => o == .lt) r
  | .vfcmple _ _ d a b m => vFpCmp e d a b m (fun o => o != .gt) r
  | .vfcvtsw _ _ d a m => vFp e d a a m (fun x _ _ => fpFromInt c x.toInt 0) r
  | .vfcvtws _ _ d a m => vFp e d a a m (fun x _ _ => fpToInt c 0 (rd x)) r
  | .vdadd _ _ d a b m => vDec e d m (fun i => decPair r a b i fun x y => decAdd (dcKZ e.dctl) x y) r
  | .vdsub _ _ d a b m => vDec e d m (fun i => decPair r a b i fun x y => decAdd (dcKZ e.dctl) x y.neg) r
  | .vdtst _ _ a m =>
    vOut (setK r m (clearBits (kreg r m) ((processed (e.vle / 128) (kreg r m)).filter fun i => (decLane r.w[a] i).isNone)))
  | .vdcmpeq _ _ d a b m => vDecCmp e d a b m (fun x y => decide (x = y)) r
  | .vdcmplt _ _ d a b m => vDecCmp e d a b m (fun x y => decide (x < y)) r
  | .vdsrr _ _ d a sh m =>
    vDec e d m (fun i => (decLane r.w[a] i).map fun x => decShift (dcKZ e.dctl) (dcRM e.dctl) sh.toInt x) r
  | .vdsum _ _ d a m => vDecSum e d a m r
  | .vtrb _ _ d a b m =>
    vOut (setW r d (mapLanes 8 (e.vle / 8) (kreg r m) r.w[d] fun i => lane 8 r.w[b] (lane 8 r.w[a] i)))
  | .vsplat _ _ z d _ m => vOut (setW r d (mapLanes (eltBits z) (e.vle / (eltBits z)) (kreg r m) r.w[d] fun _ => e.op.val.toNat))
  | .vmovg _ _ d a => { regs := r, g := some (d, BitVec.ofNat 128 (lane 128 r.w[a] 0)), fp := 0 }
  | .vmovw _ _ d _ => vOut (setW r d (setLane 128 r.w[d] 0 e.op.val.toNat))
  | .kand _ _ d a b => vMask d a b (fun x y => x &&& y) r
  | .kor _ _ d a b => vMask d a b (fun x y => x ||| y) r
  | .kxor _ _ d a b => vMask d a b (fun x y => x ^^^ y) r
  | .kandn _ _ d a b => vMask d a b (fun x y => x &&& ~~~y) r
  | .knot _ _ d a => vMask d a a (fun x _ => ~~~x) r
  | .kmovg _ _ d a q => { regs := r, g := some (d, (kreg r a).extractLsb' (128 * q.toNat) 128), fp := 0 }
  | .kmovk _ _ d _ q => vOut (setK r d (putField (kreg r d) (128 * q.toNat) e.op.val))
  | _ => vOut r
where
  /-- Both decimal lanes of a pair of registers, where they are valid. -/
  decPair (r : Regs) (a b : Reg) (i : Nat) (f : Dec → Dec → DecOut) : Option DecOut :=
    match decLane r.w[a] i, decLane r.w[b] i with
    | some x, some y => some (f x y)
    | _, _ => none

/-! ## Loads and stores (R216-R219) -/

/-- The load or store that an entry holds. -/
def VEntry.mem (e : VEntry) : Option VMem :=
  match e.instr with
  | .vld _ _ z d _ m => some { store := false, dec := false, width := (eltBits z), reg := d, km := m }
  | .vldd _ _ d _ m => some { store := false, dec := true, width := 128, reg := d, km := m }
  | .vst _ _ z d _ m => some { store := true, dec := false, width := (eltBits z), reg := d, km := m }
  | .vstd _ _ d _ m => some { store := true, dec := true, width := 128, reg := d, km := m }
  | _ => none

/-- The bytes of a lane in memory (R48). -/
def VMem.bytes (m : VMem) (v : BitVec 4096) (i : Nat) : List Byte :=
  if m.dec then beBytes 16 (lane 128 v i) else leBytes (m.width / 8) (lane m.width v i)

/-- The lane that bytes in memory hold (R48). -/
def VMem.value (m : VMem) (bs : List Byte) : Nat := if m.dec then ofBe bs else ofLe bs

/-- The bytes that a store of n bytes writes: those of the processed lanes (R216). -/
def VMem.image (m : VMem) (r : Regs) (n : Nat) : List (Option Byte) :=
  ((List.range (n / (m.width / 8))).map fun i =>
    if (kreg r m.km).getLsbD i then (m.bytes r.w[m.reg] i).map some else List.replicate (m.width / 8) none).flatten

/-- Whether byte o of the range belongs to a processed lane. -/
def VMem.wants (m : VMem) (r : Regs) (o : Nat) : Bool := (kreg r m.km).getLsbD (o / (m.width / 8))

/-- The processed lanes of a load whose bytes have all come, written (R219). -/
def VMem.fill (m : VMem) (r : Regs) (n : Nat) (got : List (Nat × List Byte)) : Regs :=
  let w := m.width / 8
  let byte (o : Nat) : Option Byte := got.findSome? fun (lo, bs) => if lo ≤ o then bs[o - lo]? else none
  let v := (processed (n / w) (kreg r m.km)).foldl (fun v i =>
    let bs := (List.range w).map fun b => byte (w * i + b)
    if bs.all Option.isSome then setLane m.width v i (m.value (bs.map fun b => b.getD 0)) else v) r.w[m.reg]
  setW r m.reg v

/-- The runs of bytes that are present, each with its offset. -/
def runsOf : Nat → List (Option Byte) → List (Nat × List Byte)
  | _, [] => []
  | o, none :: r => runsOf (o + 1) r
  | o, some b :: r =>
    match runsOf (o + 1) r with
    | (x, bs) :: l => if x = o + 1 then (o, b :: bs) :: l else (o, [b]) :: (x, bs) :: l
    | [] => [(o, [b])]

/-- An image written to device memory from an address on. -/
def putImage (a : Nat) (img : List (Option Byte)) (s : State) : State :=
  (runsOf 0 img).foldl (fun s (o, bs) => strPut (a + o) bs s) s

/-- The entry leaves its beats: its results are published by VECTOR_ENTRY_COMPLETE. -/
def vecDone (c : CoreId) (e : VEntry) (o : VOut) (s : State) : State :=
  s.modCore c fun k =>
    { k with regs := o.regs,
             ms := { k.ms with vdone := k.ms.vdone ++ [{ last := e.last, lat := e.lat, isMem := e.isMem, gWrite := o.g, fpOr := o.fp, seq := e.seq }] } }

/-- KEY_MISMATCH of a refused block: an imprecise cause, taken before the first instruction that issues after cycle x
(R219). -/
def vecRefuse (c : CoreId) (x : Nat) (a : Nat) (s : State) : State :=
  s.modSeq c fun q =>
    match q.imprecise with
    | some _ => q
    | none => { q with imprecise := some { code := cKey, due := 0, after := x, xaddr := BitVec.ofNat 52 a } }

/-- The first byte of block k that belongs to a processed lane (R219). -/
def firstWanted (m : VMem) (r : Regs) (a n k : Nat) : Option Nat :=
  let (lo, hi) := blockSpan a n k
  (((List.range (hi - lo)).map fun i => lo + i).find? fun o => m.wants r o).map fun o => a + o

/-- No block of the load or store that is running is still to be sent (R218). -/
def lastBlock (c : CoreId) (s : State) : Bool :=
  !s.timed.any fun x => decide (x.core = c) && (match x.what with | .vblock _ _ => true | _ => false)

/-- The blocks of the load or store that is running which are still to be sent, taken out (R219). -/
def dropBlocks (c : CoreId) (s : State) : State :=
  { s with timed := s.timed.filter fun x => !(decide (x.core = c) && (match x.what with | .vblock _ _ => true | _ => false)) }

/-- The load of the Rand unit ends once every block has been sent and has come. -/
def vecLoadOn (c : CoreId) (s : State) : State :=
  match (s.core c).ms.vloads with
  | [] => s
  | l :: _ =>
    if (s.core c).ms.blocks.any (·.toVec) || !lastBlock c s then s
    else
      match l.entry.mem with
      | none => s
      | some m =>
        let r := m.fill (s.core c).regs (l.entry.vle / 8) l.got
        vecDone c l.entry (vOut r) (s.modMs c fun ms => { ms with vloads := [] })

/-- A block read of the Rand unit has come. -/
def vecReturn (c : CoreId) (b : BlockRead) (data : List Byte) (s : State) : State :=
  match (s.core c).ms.vloads with
  | [] => s
  | l :: _ =>
    let s := match b.bad with | some w => consumedEcc c (l.entry.last + 3) 3 w s | none => s
    let take (l : VLoad) : VLoad := { l with got := l.got ++ [(b.addr - l.entry.addr.toNat, data)] }
    vecLoadOn c (s.modMs c fun ms => { ms with vloads := ms.vloads.map take })

/-- Block k of a load or store in the global scratchpad comes to its cycle x (R218, R219): it is not sent where no lane wants it; where
the key rule passes it is sent, and else neither it nor a later block is; an uncorrectable key byte of the tile's copy stops it too (R268). -/
def vecBlock (c : CoreId) (x : Nat) (e : VEntry) (k : Nat) (s : State) : State :=
  match e.mem with
  | none => s
  | some m =>
    let r := (s.core c).regs
    let a := e.addr.toNat
    let n := e.vle / 8
    match firstWanted m r a n k with
    | none => vecLoadOn c s
    | some p =>
      let (lo, hi) := blockSpan a n k
      let base := (s.core c).atBase
      let s := softKeys c.val e.key p 1 s
      if (keyByteBad s c.val e.key p 1).isSome then vecLoadOn c (consumedEcc c x 4 p (dropBlocks c s))
      else if !keyPasses s e.key m.store p then vecLoadOn c (vecRefuse c x p (dropBlocks c s))
      else if m.store then
        let part := List.replicate ((a + lo) % 64) none ++ ((m.image r n).drop lo).take (hi - lo)
        sendBlock c e.pc e.seq x ((a + lo) / 64 * 64) part e.key base s
      else sendBlockRead c x (a + lo) e.key base true s

/-- Beat k of a load or store in LDS: bytes 64k to 64k + 63 of the range (R217). -/
def vecBeat (c : CoreId) (e : VEntry) (k : Nat) (s : State) : State :=
  match e.mem with
  | none => s
  | some m =>
    let r := (s.core c).regs
    let lo := 64 * k
    let n := min 64 (e.vle / 8 - lo)
    let at_ := ldsBase c + e.addr.toNat + lo
    if m.store then putImage at_ (((m.image r (e.vle / 8)).drop lo).take n) s
    else
      let wanted := (List.range n).find? fun o => m.wants r (lo + o) && (eccHit s (at_ + o) 1).isSome
      let s := match wanted with
        | some o => consumedEcc c (e.last + e.lat + 1) 3 ((eccHit s (at_ + o) 1).getD 0) s
        | none => s
      let hit (w : Nat) : Bool := (List.range n).any fun o => eccWord (at_ + o) == w && m.wants r (lo + o)
      let s := (s.eccSoft.filter hit).foldl (fun s _ => countCorrected s) s
      s.modRegs c fun _ => m.fill r (e.vle / 8) [(lo, s.bytes at_ n)]

/-- A load or store runs its beats, each in its own cycle (R217, R218). -/
def vecMemBeats (c : CoreId) (e : VEntry) (m : VMem) (s : State) : State :=
  let n := e.vle / 8
  let a := e.addr.toNat
  if e.global then
    let at_ (k : Nat) : Nat := if m.store then e.first + 4 * k else e.first + 104 * (k / 8) + 4 * (k % 8)
    let s := (List.range (blocksOf a n)).foldl (fun s k => schedule c (at_ k) 0 (.vblock e k) s) s
    if m.store then vecDone c e (vOut (s.core c).regs) s
    else s.modMs c fun ms => { ms with vloads := [{ entry := e, got := [] }] }
  else
    let rank := if m.store then 1 else 0
    let s := (List.range (cdiv n 64)).foldl (fun s k => schedule c (e.first + k) rank (.beat e k) s) s
    vecDone c e (vOut (s.core c).regs) s

/-! ## Gather and scatter (R220-R224) -/

/-- Lane i of a gather or scatter at an LDS offset, in its cycle (R222); `due` is the cycle of the MACHINE_CHECK for an error that the
lane meets, that of the completion or of the trap (R268). -/
def gatherLane (c : CoreId) (m : VMem) (i off due : Nat) (s : State) : State :=
  let at_ := ldsBase c + off
  let n := m.width / 8
  let r := (s.core c).regs
  let s := if m.store then strPut at_ (m.bytes r.w[m.reg] i) s
    else
      let s := consume c due 3 at_ n s
      s.modRegs c fun r => setW r m.reg (setLane m.width r.w[m.reg] i (m.value (s.bytes at_ n)))
  s.modRegs c fun r => setK r m.km (putBit (kreg r m.km) i false)

end Sys2Proof.Machine
end

