-- ==== Sys2Proof/Machine/Timed.lean ====
section
/-! DEFINITION. What comes about in a cycle that is fixed earlier, and the state as of a cycle: reads in E1, writes through the ports of LDS
and the LIS, beats, blocks and lanes, and the work of string instructions, in the order of their cycles (R52, R72, R73, R217, R222, R245). -/
namespace Sys2Proof.Machine

/-- KEYR's read of the key byte of a global frame in its E1, cycle x, from the master table; on a pair the even core's reading stands
(R290). An uncorrectable byte makes a MACHINE_CHECK due as a load's, and gd is not written (R268; log entry 104). -/
def readKey (c : CoreId) (x a : Nat) (gd : Reg) (seq : Nat) (s : State) : State :=
  let (v, s) := sharedValue c ((keyByte s a).setWidth 128) s
  let s := softKeys 48 1 a 1 s
  match keyByteBad s 48 1 a 1 with
  | some p => consumedEcc c x 2 p s
  | none => pushAt c x seq (.reg gd (TWord.plain v)) s

/-- A result written where it goes, a number of cycles after the instruction's, with its flags (R56, R88). -/
def giveTo (dist : Nat) (flags : Option (BitVec 6)) (v : Word) (dests : List ResultTo) (s : State) : State :=
  dests.foldl (fun s d =>
    let s := pushAt d.core (d.cycle + dist) d.seq (.reg d.reg (TWord.plain v)) s
    match flags with
    | some f => pushAt d.core (d.cycle + dist) d.seq (.flags (fZ ||| fN) f) s
    | none => s) s

/-- One timed act comes about in its cycle. -/
def performTimed (x : Timed) (s : State) : State :=
  match x.what with
  | .load l => readPart x.core x.cycle l s
  | .put a bs tag => putLocal a bs tag s
  | .keyr a gd seq => readKey x.core x.cycle a gd seq s
  | .beat e k => vecBeat x.core e k s
  | .vblock e k => vecBlock x.core x.cycle e k s
  | .lane m i off due => gatherLane x.core m i off due s
  | .string j => strAct x.core x.cycle j s
  | .mvblRead k => mvblRead x.core x.cycle k s
  | .mvblSend k => mvblSend x.core x.cycle k s
  | .record a st seq => readRecord x.core a st seq (consume x.core x.cycle 2 (a + 48) 32 s)
  | .reload a => reloadBase x.core a (consume x.core x.cycle 2 a 32 s)
  | .burst => crossBurst x.core s
  | .lockup => lockup x.core x.cycle s
  | .send r key store => postBg x.cycle r key store s
  | .grant => grantAll (x.cycle / 2) s
  | .esub e ga gb base after dests =>
    let (r, s) := submitEsub x.core x.cycle e ga gb base (some after) s
    giveTo 2 none r dests s
  | .msub ch ga base after dests =>
    let (r, s) := submitMover x.cycle ⟨ch % 64, Nat.mod_lt _ (by decide)⟩ ga base (some after) s
    giveTo 2 none r dests s
  | .jcommit pair ga gb after dests =>
    let (r, s) := doJcommit x.core pair (some after) ga gb s
    giveTo 4 (some (commitFlags r)) r dests s
  | .engStatus e start => sendStatus ⟨e % 49, Nat.mod_lt _ (by decide)⟩ start (x.cycle / 2) s
  | .pins pol oe out => pinsTake pol oe out s
  | .sense mask level => pinsSense mask level s

/-- The place of an act in the order of cycles and ranks. -/
def Timed.key (x : Timed) : Nat := 3 * x.cycle + x.rank

/-- The timed acts before a place, performed in order, each once its cycle has come; at most `fuel` of them. -/
def runTimed (limit : Nat) : Nat → State → State
  | 0, s => s
  | fuel + 1, s =>
    match s.timed with
    | [] => s
    | x :: r => if x.key < limit then runTimed limit fuel (performTimed x (settleUnits x.cycle { s with timed := r })) else s

/-- The most acts that one command makes come about: each core has at most some 140 under way, and the units make a grant in a fabric
cycle. -/
def timedFuel : Nat := 65536

/-- The state as of cycle t: what comes about before t and the reads of t have come about, and the units are up to date. The writes of t
follow the reads of t (R245). -/
def settle (t : Nat) (s : State) : State := settleUnits t (runTimed (3 * t + 1) timedFuel s)

/-- The state once what comes about in the current cycle has: a write through the fabric port of that cycle stands over those through a
core's own port (R245), and submissions of the cycle have been taken in ascending core number (R378). -/
def settlePort (s : State) : State := runTimed (3 * s.now + 3) timedFuel s

/-- The state once a requester has no request that is sent or to be sent, after at most a number of fabric cycles. -/
def awaitBg (who : Nat) : Nat → State → State
  | 0, s => s
  | n + 1, s => if bgBusy s who then awaitBg who n (settle (s.now + 2) s) else s

/-- The fabric cycles within which what a requester has sent is granted. -/
def bgFuel : Nat := 16384

/-- Where nothing is timed, the state as of a cycle is that of the units. -/
theorem settle_of_quiet (t : Nat) (s : State) (h : s.timed = []) : settle t s = settleUnits t s := by
  unfold settle timedFuel runTimed
  rw [h]

end Sys2Proof.Machine
end

