-- ==== Sys2Proof/Machine/Issue.lean ====
section
/-! DEFINITION. The issue of one instruction: the boundary before it with the exceptions that are due there (R302, R305, R306, R324), the
condition (R64, R65), holds (R53), and the points of string instructions (R171-R174). -/
namespace Sys2Proof.Machine

/-- What an instruction does once it issues in cycle t. -/
inductive Body where
  /-- It issues, with its issue cost and the state it leaves. -/
  | done (cost : Nat) (s : State)
  /-- It raises a precise cause, `delay` cycles after its issue, over a state that its progress has left. -/
  | trap (q : Trap) (delay : Nat) (s : State)
  /-- Issue is held in this cycle (R53), with what the held cycle leaves behind. -/
  | held (f : State → State)
  /-- It issues and sets the PCC and the next issue itself (R320), or its work follows in later cycles (R166, R349). -/
  | moved (s : State)
  /-- SVC or BASECALL with its CODE (R322). -/
  | call (base : Bool) (code : BitVec 12)

/-! ## The boundary -/

/-- The boundary in cycle t: everything due before t has come about, and the writes that completed before t are in
their registers. -/
def atBoundary (c : CoreId) (t : Nat) (s : State) : State := (settle t s).modCore c (retire (t - 1))

/-! ## The verdict at the boundary -/

/-- What the instruction at the boundary would do, DE faults included. -/
inductive Verdict where
  | de (q : Cause)
  | annul
  | run (b : Body)

/-- A repeated instruction reads gc as the count that remains (R178). -/
def withCount (c : CoreId) (s : State) : State :=
  match (s.core c).seq.rpt with
  | some r => s.modCore c fun k => k.setReg r.gc (TWord.plain (r.left.setWidth 128))
  | none => s

/-- DE, the condition and the instruction itself, over the state in which its operands are read. -/
def verdict (c : CoreId) (f : Form) (body : Nat → State → Body) (t : Nat) (s : State) : Verdict :=
  let k := s.core c
  match deFault k f with
  | some q => .de q
  | none =>
    let zero := match k.seq.rpt with | some r => r.left == 0 | none => false
    if !condHolds f.cond k.x.status || zero then .annul else .run (body t (withCount c s))

/-- Whether a verdict is a precise cause (R305 item 7, R306). -/
def Verdict.precise : Verdict → Bool
  | .de _ => true
  | .annul => false
  | .run (.trap _ _ _) => true
  | .run (.call _ _) => true
  | .run _ => false

/-- Whether a verdict is a MACHINE_CHECK that the instruction meets in IS, item 1 of R305 (R268). -/
def Verdict.machine : Verdict → Bool
  | .run (.trap q _ _) => q.code == codeMachine
  | .de q => q.code == codeMachine
  | _ => false

/-- Whether a verdict holds issue. -/
def Verdict.held : Verdict → Bool
  | .run (.held _) => true
  | _ => false

/-- A branch that is not taken has its two delay slots too (R67). -/
def untaken (c : CoreId) (f : Form) (s : State) : State :=
  if f.branch then
    s.modSeq c fun q =>
      { q with branch := some { left := 2, taken := false, target := TWord.null, invoked := none, seq := q.wseq } }
  else s

/-- SVC and BASECALL: the call issues, and its entry is taken in the next cycle (R322). -/
def takeCall (c : CoreId) (t : Nat) (base : Bool) (code : BitVec 12) (s : State) : State :=
  let a := (s.core c).pc
  let s := finish c t 1 (s.core c).seq s
  let k := s.core c
  if base then enterBase c (t + 1) 0x45 ((code.setWidth 64) <<< 32) k.pc false a s
  else deliver c (t + 1) { code := 0x0B, xpc := k.pc, xaddr := a, xinfo := code.setWidth 64, fault := true, back := false } s

/-- The verdict carried out. `s0` is the boundary and `s1` the state in which operands are read. -/
def carryOut (c : CoreId) (f : Form) (t : Nat) (s0 s1 : State) : Verdict → State
  | .de q => deliver c t q s0
  | .annul => untaken c f (finish c t 1 (s1.core c).seq s1)
  | .run (.done cost s) => finish c t cost (s1.core c).seq s
  | .run (.trap q 0 s) => deliver c t (q.cause (s1.core c)) s
  | .run (.trap q delay s) => trapAt c (t + delay) q (s.modSeq c fun q => { q with hold := none })
  | .run (.held g) => (g s0).modSeq c fun q => { q with nextIssue := t + 1 }
  | .run (.moved s) => s
  | .run (.call base code) => takeCall c t base code s1

/-- R305 and R306 at a boundary of core c in cycle t with a verdict on the instruction there. -/
def resolve (c : CoreId) (f : Form) (t : Nat) (s0 s1 : State) (v : Verdict) : State :=
  match baseDue c t s0 with
  | some s => s
  | none =>
    match (if v.machine then none else impreciseDue c t v.precise s1) with
    | some i => takeImpreciseAt c t i s0
    | none =>
      if v.precise then carryOut c f t s0 s1 v
      else if accepts (s0.core c).seq then
        match nativeEventDue s1 c t with
        | some n => takeEvent c t n s0
        | none => carryOut c f t s0 s1 v
      else carryOut c f t s0 s1 v

/-! ## Interruption points (R171-R174) -/

/-- Whether an event or a base cause would be taken on core c at an interruption point in cycle a. -/
def wouldAccept (c : CoreId) (a : Nat) (s : State) : Bool :=
  let s := settle a s
  (baseDue c a s).isSome || (nativeEventDue s c a).isSome

/-- What core c takes at an interruption point in cycle t: a base cause, or an event or the imprecise cause in its place
(R171, R305, R306). -/
def pointTaken (c : CoreId) (t : Nat) (s : State) : Option State :=
  match baseDue c t s with
  | some u => some u
  | none =>
    match nativeEventDue s c t with
    | none => none
    | some n =>
      match impreciseDue c t false s with
      | some i => some (takeImpreciseAt c t i s)
      | none => some (takeEvent c t n s)

/-- The string instruction of core c at its point in cycle t: what is taken there, or else what `go` gives. -/
def stringPoint (c : CoreId) (t : Nat) (go : State → State) (s : State) : State :=
  let s := s.modCore c (settleCore false t)
  match pointTaken c t (leavePoint c t s) with
  | some u => u
  | none => go s

/-- A point of a string instruction in cycle t at which nothing is taken: its work goes on, or its count does (R171, R173). -/
def passPoint (c : CoreId) (t : Nat) (k : StrCont) (s : State) : State :=
  match k with
  | .work j => strGo c t false j s
  | .spent [] => s.modSeq c fun q => { q with str := none }
  | .spent (x :: r) => s.modSeq c fun q => { q with nextIssue := x, str := if r.isEmpty then none else some (.spent r) }
  | .block => s.modSeq c fun q => { q with str := none }

/-- The boundary of core c that comes next: what an instruction under way does in the meantime moves it on. -/
def nextBoundary (c : CoreId) (s : State) : Nat × State :=
  if s.timed.isEmpty then (issueTime s c, s)
  else
    let s := settle (issueTime s c) s
    let t := issueTime s c
    (t, settle t s)

/-- The fetch of the instruction at the boundary `s0`, unless issue is held there or a repetition fetches nothing: a single-bit error in its
word is corrected and counted (R178, R266). -/
def softFetch (c : CoreId) (s0 : State) (v : Verdict) (s : State) : State :=
  let k := s0.core c
  let again := match k.seq.rpt with | some r => !r.fresh | none => false
  if s0.eccSoft.isEmpty || v.held || again || !within k.pc.toNat 4 lisLocal lisSize then s
  else softRead (lisBase c + (k.pc.toNat - lisLocal)) 4 s

/-- An instruction word offered to core c. `body` gives what it does when it issues in cycle t; `finish` follows where
it completes. A string instruction is offered again at each of its interruption points (R171). -/
def issueState (c : CoreId) (f : Form) (body : Nat → State → Body) (s0 : State) : State :=
  let (t, s) := nextBoundary c s0
  if !canIssue s c then s0
  else
    match (s.core c).seq.str, (s.core c).seq.trap with
    | some k, _ => stringPoint c t (passPoint c t k) (atBoundary c t s)
    | none, some q =>
      let s0 := atBoundary c t s
      resolve c f t s0 (s0.modCore c (settleCore false t)) (.de q)
    | none, none =>
      let s0 := fetchCheck c t (atBoundary c t s)
      let s1 := s0.modCore c (settleCore false t)
      let v := verdict c f body t s1
      softFetch c s0 v (resolve c f t s0 s1 v)

/-- See `issueState`. -/
def issue (c : CoreId) (f : Form) (body : Nat → State → Body) (s : State) : Host.Outcome State Fault Refusal :=
  .next (issueState c f body s)

/-! ## Holds (R53) -/

/-- The body of a scalar access: held while R53 holds it, else what it does. -/
def heldOr (c : CoreId) (t : Nat) (n : Needs) (s : State) (b : Body) : Body :=
  match accessHeld (s.core c) t n with
  | some f => .held fun s => s.modSeq c f
  | none => b

end Sys2Proof.Machine
end

