-- ==== Sys2Proof/Machine/Events.lean ====
section
/-! DEFINITION. The event instructions, the delivery of held raises, and the core timers (R336, R343-R345). -/
namespace Sys2Proof.Machine

/-- EVRAISE, EVACK and EVCLR (functions 0, 1 and 2) performed as if issued by core c in cycle t (R343, R345). -/
def doEvent (c : CoreId) (t fn : Nat) (n : EventId) (s : State) : State :=
  match fn with
  | 0 => raise n (t + 1) s
  | 1 => evSchedule (t + 2) (evCore s c) n .ack s
  | _ => evSchedule (t + 2) (evCore s c) n .clr s

/-- The form of an event instruction (R343). -/
def evForm (cond : Cond) (gd gb : Reg) (fn : BitVec 5) : Form := { word := regWord cond 0x0B gd 0 gb 0 fn, cond := cond }

/-- The event number gb[8:0] (R343). -/
def evNumber (k : Core) (gb : Reg) : EventId := evNo ((k.reg gb).val.toNat % 512)

/-- The body of EVRAISE, EVACK and EVCLR: an act on a pair (R343, R345). -/
def evBody (c : CoreId) (gb : Reg) (fn : Nat) (t : Nat) (s : State) : Body :=
  let k := s.core c
  let n := evNumber k gb
  match needPcc k permEVENT with
  | some q => .trap q 0 s
  | none =>
    if fn = 0 ∧ !(decide (n.val < 48) || (decide (448 ≤ n.val) && decide (n.val ≤ 495))) then
      .trap (capTrap cBounds 0 pccReg) 0 s
    else .done 1 (if paired s c then holdAct c t 0 (.event fn n) s else doEvent c t fn n s)

/-- EVRAISE (R343). -/
def execEvraise (c : CoreId) (cond : Cond) (gb : Reg) (s : State) : Host.Outcome State Fault Refusal :=
  issue c (evForm cond 0 gb 0) (evBody c gb 0) s

/-- EVACK (R343). -/
def execEvack (c : CoreId) (cond : Cond) (gb : Reg) (s : State) : Host.Outcome State Fault Refusal :=
  issue c (evForm cond 0 gb 1) (evBody c gb 1) s

/-- EVCLR (R343). -/
def execEvclr (c : CoreId) (cond : Cond) (gb : Reg) (s : State) : Host.Outcome State Fault Refusal :=
  issue c (evForm cond 0 gb 2) (evBody c gb 2) s

/-- EVNEXT (R343, R345): read as of t + 1, once for a pair; an event accepted in that cycle is not reported (R339). -/
def execEvnext (c : CoreId) (cond : Cond) (gd : Reg) (s : State) : Host.Outcome State Fault Refusal :=
  issue c (evForm cond gd 0 3) (fun t s =>
    match needPcc (s.core c) permEVENT with
    | some q => .trap q 0 s
    | none =>
      let (v, s) := sharedValue c (evnextWord (settle (t + 1) s) c) s
      .done 1 (pushFlags c (t + 2) fZ (flag fZ (v == 0x200)) (pushReg c (t + 2) gd v (markEvnext c (t + 1) gd s)))) s

/-- HELD_RAISE_DELIVERY (R336): a raise held at the controller goes to one core, the first target core that is no longer passed over, by the
EVROUTE as it stands now; under PRIO 0 it stays held (log entry 108). -/
def execHeldRaiseDelivery (ev : EventId) (s : State) : Host.Outcome State Fault Refusal :=
  if s.ev.held.getLsbD ev.val && evPrio s ev != 0 && (evTargets s ev).any (fun c => !passedOver s c) then
    .next (raiseOne ev s.now { s with ev := { s.ev with held := putBit s.ev.held ev.val false } })
  else .next s

/-- A core timer changed. -/
def modTimer (c : CoreId) (f : Timer → Timer) (s : State) : State :=
  { s with ev := { s.ev with timers := s.ev.timers.set c (f s.ev.timers[c]) } }

/-- TIMER_FIRE (R344): the timer of core c fires in the first cycle at or after CMP; a one-shot clears EN, a periodic
one moves CMP on. -/
def execTimerFire (c : CoreId) (s : State) : Host.Outcome State Fault Refusal :=
  let tm := s.ev.timers[c]
  if tm.en then
    let r := max s.now tm.cmp.toNat
    let s := settle r s
    let s := modTimer c (fun x =>
      if x.per then { x with cmp := x.cmp + (if x.period = 0 then 1 else x.period.setWidth 64) } else { x with en := false }) s
    .next (raise (evNo (48 + c.val)) r s)
  else .next s

end Sys2Proof.Machine
end

