-- ==== Sys2Proof/Machine/Aes.lean ====
section
/-! DEFINITION. AES-128 and AES-256 with the modes that R385 and R390 name: ECB, CBC, GCM with a 12-byte nonce and a
16-byte tag, CMAC, and the key wrap with padding of NIST SP 800-38F. -/
namespace Sys2Proof.Machine

/-- The AES S-box, entry 0 first. -/
def aesSboxLit : Nat :=
  0x637c777bf26b6fc53001672bfed7ab76ca82c97dfa5947f0add4a2af9ca472c0b7fd9326363ff7cc34a5e5f171d8311504c723c31896059a071280e2eb27b27509832c1a1b6e5aa0523bd6b329e32f8453d100ed20fcb15b6acbbe394a4c58cfd0efaafb434d338545f9027f503c9fa851a3408f929d38f5bcb6da2110fff3d2cd0c13ec5f974417c4a77e3d645d197360814fdc222a908846eeb814de5e0bdbe0323a0a4906245cc2d3ac629195e479e7c8376d8dd54ea96c56f4ea657aae08ba78252e1ca6b4c6e8dd741f4bbd8b8a703eb5664803f60e613557b986c11d9ee1f8981169d98e949b1e87e9ce5528df8ca1890dbfe6426841992d0fb054bb16
/-- The inverse S-box, entry 0 first. -/
def aesInvLit : Nat :=
  0x52096ad53036a538bf40a39e81f3d7fb7ce339829b2fff87348e4344c4dee9cb547b9432a6c2233dee4c950b42fac34e082ea16628d924b2765ba2496d8bd12572f8f66486689816d4a45ccc5d65b6926c704850fdedb9da5e154657a78d9d8490d8ab008cbcd30af7e45805b8b34506d02c1e8fca3f0f02c1afbd0301138a6b3a9111414f67dcea97f2cfcef0b4e67396ac7422e7ad3585e2f937e81c75df6e47f11a711d29c5896fb7620eaa18be1bfc563e4bc6d279209adbc0fe78cd5af41fdda8338807c731b11210592780ec5f60517fa919b54a0d2de57a9f93c99cefa0e03b4dae2af5b0c8ebbb3c83539961172b047eba77d626e169146355210c7d

/-- Entry b of a 256-byte literal. -/
def boxAt (lit : Nat) (b : Byte) : Byte := BitVec.ofNat 8 (lit / 2 ^ (8 * (255 - b.toNat)))

/-- Multiplication by x in the AES field. -/
def xtime (b : Byte) : Byte := (b <<< 1) ^^^ (if b.getLsbD 7 then 0x1B else 0)

/-- Multiplication by a constant of four bits in the AES field. -/
def gmul (k : Nat) (b : Byte) : Byte :=
  let b2 := xtime b
  let b4 := xtime b2
  let pick (i : Nat) (v : Byte) : Byte := if k.testBit i then v else 0
  pick 0 b ^^^ pick 1 b2 ^^^ pick 2 b4 ^^^ pick 3 (xtime b4)

/-- The key schedule, newest word first, extended by k words; nk is the key's words, i the next word's number. -/
def aesExpand (nk : Nat) : Nat → Nat → Byte → List (List Byte) → List (List Byte)
  | 0, _, _, l => l
  | k + 1, i, rc, l =>
    let prev := l.headD []
    let t := if i % nk = 0 then
        xorBytes (((prev.drop 1) ++ prev.take 1).map (boxAt aesSboxLit)) [rc, 0, 0, 0]
      else if nk = 8 ∧ i % 8 = 4 then prev.map (boxAt aesSboxLit) else prev
    aesExpand nk k (i + 1) (if i % nk = 0 then xtime rc else rc) (xorBytes (l.getD (nk - 1) []) t :: l)

/-- The round keys of a key of 16 or 32 bytes. -/
def aesKeys (key : List Byte) : List (List Byte) :=
  let nk := key.length / 4
  let ws := (aesExpand nk (4 * (nk + 7) - nk) nk 1 (chunks 4 nk key).reverse).reverse
  (chunks 4 (nk + 7) ws).map List.flatten

/-- A state with byte r + 4c taken from column c + kr. -/
def shiftRows (k : Nat) (s : List Byte) : List Byte :=
  (List.range 16).map fun i => s.getD (i % 4 + 4 * ((i / 4 + k * (i % 4)) % 4)) 0

/-- Each column multiplied by the circulant of four constants. -/
def mixColumns (m : List Nat) (s : List Byte) : List Byte :=
  (List.range 16).map fun i =>
    (List.range 4).foldl (fun x j => x ^^^ gmul (m.getD ((j + 4 - i % 4) % 4) 0) (s.getD (i / 4 * 4 + j) 0)) 0

/-- One block enciphered under round keys. -/
def aesEnc (ks : List (List Byte)) (b : List Byte) : List Byte :=
  let s := xorBytes b (ks.headD [])
  let mid := ks.drop 1 |>.dropLast
  let s := mid.foldl (fun s k => xorBytes (mixColumns [2, 3, 1, 1] (shiftRows 1 (s.map (boxAt aesSboxLit)))) k) s
  xorBytes (shiftRows 1 (s.map (boxAt aesSboxLit))) (ks.getLastD [])

/-- One block deciphered under round keys. -/
def aesDec (ks : List (List Byte)) (b : List Byte) : List Byte :=
  let s := (shiftRows 3 (xorBytes b (ks.getLastD []))).map (boxAt aesInvLit)
  let mid := (ks.drop 1 |>.dropLast).reverse
  let s := mid.foldl (fun s k => (shiftRows 3 (mixColumns [14, 11, 13, 9] (xorBytes s k))).map (boxAt aesInvLit)) s
  xorBytes s (ks.headD [])

/-! ## ECB and CBC over a block function -/

/-- ECB: each block of n bytes by itself. -/
def ecbMode (n : Nat) (f : List Byte → List Byte) (m : List Byte) : List Byte := ((chunks n m.length m).map f).flatten

/-- CBC encryption of blocks from an initial value. -/
def cbcEnc (f : List Byte → List Byte) : List Byte → List (List Byte) → List (List Byte)
  | _, [] => []
  | iv, b :: r => f (xorBytes b iv) :: cbcEnc f (f (xorBytes b iv)) r

/-- CBC decryption of blocks from an initial value. -/
def cbcDec (f : List Byte → List Byte) : List Byte → List (List Byte) → List (List Byte)
  | _, [] => []
  | iv, b :: r => xorBytes (f b) iv :: cbcDec f b r

/-- CBC over blocks of n bytes, with the block function of its direction. -/
def cbcMode (n : Nat) (dec : Bool) (f : List Byte → List Byte) (iv m : List Byte) : List Byte :=
  let bs := chunks n m.length m
  (if dec then cbcDec f iv bs else cbcEnc f iv bs).flatten

/-! ## CMAC -/

/-- Doubling in GF(2^128), as CMAC takes it. -/
def cmacDouble (b : List Byte) : List Byte :=
  let v := ofBe b
  beBytes 16 ((2 * v % 2 ^ 128) ^^^ (if v < 2 ^ 127 then 0 else 0x87))

/-- AES-CMAC. -/
def aesCmacBytes (key m : List Byte) : List Byte :=
  let f := aesEnc (aesKeys key)
  let k1 := cmacDouble (f (List.replicate 16 0))
  let n := max (cdiv m.length 16) 1
  let last := m.drop (16 * (n - 1))
  let tail := if last.length = 16 then xorBytes last k1 else xorBytes (padTo 16 (last ++ [0x80])) (cmacDouble k1)
  let x := (chunks 16 n (m.take (16 * (n - 1)))).foldl (fun x b => f (xorBytes x b)) (List.replicate 16 0)
  f (xorBytes x tail)

/-! ## GCM -/

/-- The product in the field of GCM of x and a block, over the bits of x from its first on. -/
def ghashMul (x : Nat) : Nat → Nat → Nat → Nat
  | 0, _, z => z
  | k + 1, v, z =>
    ghashMul x k ((v / 2) ^^^ (if v % 2 = 1 then 0xE1 * 2 ^ 120 else 0)) (if x.testBit k then z ^^^ v else z)

/-- GHASH of AAD and ciphertext under a hash key. -/
def ghash (h : Nat) (aad c : List Byte) : Nat :=
  let blocks (l : List Byte) : List Nat := (chunks 16 l.length l).map fun b => ofBe (padTo 16 b)
  (blocks aad ++ blocks c ++ [8 * aad.length * 2 ^ 64 + 8 * c.length]).foldl (fun y b => ghashMul (y ^^^ b) 128 h 0) 0

/-- The key stream of GCM from counter value 2 on, applied to a text. -/
def gcmCtr (f : List Byte → List Byte) (nonce m : List Byte) : List Byte :=
  (((chunks 16 m.length m).zipIdx).map fun (b, i) => xorBytes b (f (nonce ++ beBytes 4 (i + 2)))).flatten

/-- The tag of a ciphertext. -/
def gcmTag (f : List Byte → List Byte) (nonce aad c : List Byte) : List Byte :=
  xorBytes (beBytes 16 (ghash (ofBe (f (List.replicate 16 0))) aad c)) (f (nonce ++ beBytes 4 1))

/-! ## Key wrap with padding -/

/-- The six passes of the wrapping function over n semiblocks: step t, the register A, and the semiblocks. -/
def kwSteps (f : List Byte → List Byte) (n : Nat) : Nat → Nat → List Byte → List (List Byte) → List Byte × List (List Byte)
  | 0, _, a, r => (a, r)
  | k + 1, t, a, r =>
    let i := (t - 1) % n
    let b := f (a ++ r.getD i [])
    kwSteps f n k (t + 1) (xorBytes (b.take 8) (beBytes 8 t)) (r.set i (b.drop 8))

/-- The six passes undone, from step t down. -/
def kwBack (f : List Byte → List Byte) (n : Nat) : Nat → List Byte → List (List Byte) → List Byte × List (List Byte)
  | 0, a, r => (a, r)
  | t + 1, a, r =>
    let i := t % n
    let b := f (xorBytes a (beBytes 8 (t + 1)) ++ r.getD i [])
    kwBack f n t (b.take 8) (r.set i (b.drop 8))

/-- AES-KWP of a plaintext. -/
def kwpWrap (key m : List Byte) : List Byte :=
  let f := aesEnc (aesKeys key)
  let n := cdiv m.length 8
  let a := [0xA6, 0x59, 0x59, 0xA6] ++ beBytes 4 m.length
  let p := padTo (8 * n) m
  if n = 1 then f (a ++ p)
  else
    let (a, r) := kwSteps f n (6 * n) 1 a (chunks 8 n p)
    a ++ r.flatten

/-- AES-KWP undone: the plaintext, none where the integrity check fails. -/
def kwpUnwrap (key c : List Byte) : Option (List Byte) :=
  let f := aesDec (aesKeys key)
  let n := c.length / 8 - 1
  let (a, p) :=
    if n = 1 then ((f c).take 8, (f c).drop 8)
    else
      let (a, r) := kwBack f n (6 * n) (c.take 8) (chunks 8 n (c.drop 8))
      (a, r.flatten)
  let len := ofBe (a.drop 4)
  if a.take 4 = [0xA6, 0x59, 0x59, 0xA6] ∧ len ≤ 8 * n ∧ 8 * n < len + 8 ∧ (p.drop len).all (· == 0) then some (p.take len)
  else none

end Sys2Proof.Machine
end

