-- ==== Sys2Proof/Machine/CtrDrbg.lean ====
section
/-! DEFINITION. The CTR_DRBG of an engine under NIST SP 800-90A, with AES-256 and the derivation function (R394), over an entropy source
whose output is free (log entry 10), and the health tests of that source (R395). -/
namespace Sys2Proof.Machine

/-- A counter block advanced by 1. -/
def counterNext (v : List Byte) : List Byte := beBytes 16 ((ofBe v + 1) % 2 ^ 128)

/-- The blocks of a counter mode keystream after a counter block, and the last counter block. -/
def counterBlocks (f : List Byte → List Byte) : Nat → List Byte → List Byte × List Byte
  | 0, v => ([], v)
  | n + 1, v =>
    let v := counterNext v
    let (r, w) := counterBlocks f n v
    (f v ++ r, w)

/-- The update function: a new Key and V under 48 bytes of data. -/
def drbgUpdate (data : List Byte) (x : CtrState) : CtrState :=
  let t := xorBytes (counterBlocks (aesEnc (aesKeys x.key)) 3 x.v).1 data
  { x with key := t.take 32, v := t.drop 32 }

/-- The chained blocks of the derivation function. -/
def drbgBcc (f : List Byte → List Byte) (m : List Byte) : List Byte :=
  (chunks 16 m.length m).foldl (fun x b => f (xorBytes x b)) (List.replicate 16 0)

/-- The derivation function, for 48 bytes. -/
def drbgDf (input : List Byte) : List Byte :=
  let m := beBytes 4 input.length ++ beBytes 4 48 ++ input ++ [0x80]
  let m := m ++ List.replicate (16 * cdiv m.length 16 - m.length) 0
  let f := aesEnc (aesKeys ((List.range 32).map fun i => BitVec.ofNat 8 i))
  let t := (List.range 3).flatMap fun i => drbgBcc f (beBytes 4 i ++ List.replicate 12 0 ++ m)
  let g := aesEnc (aesKeys (t.take 32))
  let a := g (t.drop 32)
  let b := g a
  a ++ b ++ g b

/-- An instance seeded from entropy and a nonce. -/
def drbgSeeded (entropy nonce : List Byte) : CtrState :=
  drbgUpdate (drbgDf (entropy ++ nonce)) { key := List.replicate 32 0, v := List.replicate 16 0, count := 0 }

/-- An instance reseeded from entropy. -/
def drbgReseeded (entropy : List Byte) (x : CtrState) : CtrState := { drbgUpdate (drbgDf entropy) x with count := 0 }

/-- A generate request for n bytes, with the instance that it leaves. -/
def drbgGenerate (n : Nat) (x : CtrState) : List Byte × CtrState :=
  let (r, v) := counterBlocks (aesEnc (aesKeys x.key)) (cdiv n 16) x.v
  (r.take n, { drbgUpdate (List.replicate 48 0) { x with v := v } with count := x.count + 1 })

/-- Engine e generates n random bytes (R394). -/
def engineDraw (e : EngineId) (n : Nat) (s : State) : List Byte × State :=
  let (r, x) := drbgGenerate n s.engines[e].drbg
  (r, modEngine e (fun g => { g with drbg := x }) s)

/-- Every instance instantiated: 384 bits of entropy and a nonce of 128 bits for each (R394, R395; log entry 10). -/
def instantiateAll (s : State) : State :=
  (List.finRange 49).foldl (fun s e =>
    let (entropy, s) := drawBytes s 48
    let (nonce, s) := drawBytes s 16
    modEngine e (fun g => { g with drbg := drbgSeeded entropy nonce }) s) s

/-! ## Health tests (R395) -/

/-- The longest run of equal samples at the head of a list, and whether a run reaches a length anywhere: the last sample, the run that it
ends, and the samples that remain. -/
def runReaches (cutoff : Nat) : Bool → Nat → List Bool → Bool
  | _, n, [] => decide (cutoff ≤ n)
  | b, n, x :: r => decide (cutoff ≤ n) || runReaches cutoff x (if x = b then n + 1 else 1) r

/-- The repetition count test, with cutoff 41, fails on samples of one bit (log entry 102). -/
def rctFails (l : List Bool) : Bool :=
  match l with
  | [] => false
  | b :: r => runReaches 41 b 1 r

/-- The adaptive proportion test fails on a window of 1,024 samples: the first sample occurs in it at least 794 times. -/
def aptFails (l : List Bool) : Bool :=
  match l.take 1024 with
  | [] => false
  | b :: r => decide (794 ≤ ((b :: r).filter fun x => x == b).length)

end Sys2Proof.Machine
end

