-- ==== Sys2Proof/Machine/Curve.lean ====
section
/-! DEFINITION. The public-key operations of R384: ECDSA and ECDH on P-256 and P-384, Ed25519 under RFC 8032, and RSA
with PKCS #1 v1.5 and PSS. -/
namespace Sys2Proof.Machine

/-- b to the power e modulo m, over `fuel` bits of e. -/
def powMod (m b : Nat) : Nat → Nat → Nat
  | 0, _ => 1 % m
  | fuel + 1, e =>
    let h := powMod m b fuel (e / 2)
    if e % 2 = 1 then h * h % m * b % m else h * h % m

/-- Euclid's algorithm over `fuel` divisions: r and s are x and y times one number modulo m. -/
def euclid (m : Nat) : Nat → Nat → Nat → Nat → Nat → Nat
  | 0, _, x, _, _ => x
  | fuel + 1, r, x, s, y => if s = 0 then x else euclid m fuel s y (r % s) ((x + (m - r / s * y % m)) % m)

/-- The inverse of a number modulo a prime; 0 for 0. -/
def invMod (p a : Nat) : Nat := euclid p (2 * p.log2 + 2) p 0 (a % p) 1

/-! ## Weierstrass curves -/

/-- A curve y² = x³ - 3x + b over a prime field: p, b, the order of its base point, the base point, and the bytes of a
coordinate. -/
structure EcCurve where
  p : Nat
  b : Nat
  n : Nat
  gx : Nat
  gy : Nat
  size : Nat

/-- P-256. -/
def p256 : EcCurve :=
  { p := 0xffffffff00000001000000000000000000000000ffffffffffffffffffffffff,
    b := 0x5ac635d8aa3a93e7b3ebbd55769886bc651d06b0cc53b0f63bce3c3e27d2604b,
    n := 0xffffffff00000000ffffffffffffffffbce6faada7179e84f3b9cac2fc632551,
    gx := 0x6b17d1f2e12c4247f8bce6e563a440f277037d812deb33a0f4a13945d898c296,
    gy := 0x4fe342e2fe1a7f9b8ee7eb4a7c0f9e162bce33576b315ececbb6406837bf51f5, size := 32 }
/-- P-384. -/
def p384 : EcCurve :=
  { p := 0xfffffffffffffffffffffffffffffffffffffffffffffffffffffffffffffffeffffffff0000000000000000ffffffff,
    b := 0xb3312fa7e23ee7e4988e056be3f82d19181d9c6efe8141120314088f5013875ac656398d8a2ed19d2a85c8edd3ec2aef,
    n := 0xffffffffffffffffffffffffffffffffffffffffffffffffc7634d81f4372ddf581a0db248b0a77aecec196accc52973,
    gx := 0xaa87ca22be8b05378eb1c71ef320ad746e1d3b628ba79b9859f741e082542a385502f25dbf55296c3a545e3872760ab7,
    gy := 0x3617de4a96262c6f5d9e98bf9292dc29f8f41dbd289a147ce9da3113b5f0b8c00a60b1ce1d7e819d7a431d7c90ea0e5f,
    size := 48 }

/-- A point: none is the point at infinity. -/
abbrev EcPoint := Option (Nat × Nat)

/-- Whether a pair of coordinates is a point of the curve. -/
def ecOn (c : EcCurve) (x y : Nat) : Bool :=
  decide (x < c.p) && decide (y < c.p) && (y * y % c.p == (x * x % c.p * x + (c.p - 3) * x + c.b) % c.p)

/-- The third point of the line of slope l through (x1, y1) with the x-coordinate x2, mirrored. -/
def ecThird (c : EcCurve) (l x1 y1 x2 : Nat) : EcPoint :=
  let x := (l * l + 2 * c.p - x1 - x2) % c.p
  some (x, (l * (x1 + c.p - x) + c.p - y1) % c.p)

/-- The sum of two points. -/
def ecAdd (c : EcCurve) (a b : EcPoint) : EcPoint :=
  match a, b with
  | none, q => q
  | q, none => q
  | some (x1, y1), some (x2, y2) =>
    if x1 = x2 then
      if (y1 + y2) % c.p = 0 then none
      else ecThird c ((3 * x1 * x1 + c.p - 3) % c.p * invMod c.p (2 * y1) % c.p) x1 y1 x2
    else ecThird c ((y2 + c.p - y1) * invMod c.p (x2 + c.p - x1) % c.p) x1 y1 x2

/-- A multiple of a point, over `fuel` bits of the scalar. -/
def ecMul (c : EcCurve) (q : EcPoint) : Nat → Nat → EcPoint
  | 0, _ => none
  | fuel + 1, k =>
    let h := ecMul c q fuel (k / 2)
    let d := ecAdd c h h
    if k % 2 = 1 then ecAdd c d q else d

/-- A multiple by a scalar of the width of the order. -/
def ecScale (c : EcCurve) (k : Nat) (q : EcPoint) : EcPoint := ecMul c q (8 * c.size) k

/-- The base point. -/
def EcCurve.base (c : EcCurve) : EcPoint := some (c.gx, c.gy)

/-- X and Y of a point, most significant byte first. -/
def ecBytes (c : EcCurve) (q : EcPoint) : List Byte :=
  match q with
  | some (x, y) => beBytes c.size x ++ beBytes c.size y
  | none => List.replicate (2 * c.size) 0

/-- The public point of a scalar. -/
def ecPublic (c : EcCurve) (d : Nat) : List Byte := ecBytes c (ecScale c d c.base)

/-- The point that X ‖ Y names, where it is on the curve. -/
def ecParse (c : EcCurve) (b : List Byte) : Option (Nat × Nat) :=
  let x := ofBe (b.take c.size)
  let y := ofBe ((b.drop c.size).take c.size)
  if ecOn c x y then some (x, y) else none

/-- A number of 1 to n - 1 from random bytes, eight more than the order has. -/
def ecScalar (c : EcCurve) (r : List Byte) : Nat := ofBe r % (c.n - 1) + 1

/-- An ECDSA signature r ‖ s of a digest under d with a nonce. -/
def ecdsaSign (c : EcCurve) (d k : Nat) (digest : List Byte) : List Byte :=
  match ecScale c k c.base with
  | some (x, _) =>
    let r := x % c.n
    beBytes c.size r ++ beBytes c.size (invMod c.n k * (ofBe digest + r * d) % c.n)
  | none => List.replicate (2 * c.size) 0

/-- ECDSA verification of a digest and r ‖ s under the public key X ‖ Y (R384). -/
def ecdsaVerify (c : EcCurve) (pub digest sig : List Byte) : Bool :=
  let r := ofBe (sig.take c.size)
  let s := ofBe (sig.drop c.size)
  match ecParse c pub with
  | none => false
  | some q =>
    if r = 0 ∨ c.n ≤ r ∨ s = 0 ∨ c.n ≤ s then false
    else
      let w := invMod c.n s
      match ecAdd c (ecScale c (ofBe digest * w % c.n) c.base) (ecScale c (r * w % c.n) (some q)) with
      | some (x, _) => x % c.n == r
      | none => false

/-- The x-coordinate of the shared point, none where the peer point is refused (R384). -/
def ecdhShared (c : EcCurve) (d : Nat) (peer : List Byte) : Option (List Byte) :=
  match ecParse c peer with
  | none => none
  | some q =>
    match ecScale c d (some q) with
    | some (x, _) => some (beBytes c.size x)
    | none => none

/-! ## Ed25519 -/

/-- The field prime 2^255 - 19. -/
def edP : Nat := 2 ^ 255 - 19
/-- The order of the base point. -/
def edL : Nat := 2 ^ 252 + 27742317777372353535851937790883648493
/-- The curve constant d = -121665 / 121666. -/
def edD : Nat := (edP - 121665) * invMod edP 121666 % edP

/-- The x of a point from its y and the parity of x (RFC 8032, 5.1.3). -/
def edRecover (y : Nat) (sign : Nat) : Option Nat :=
  if edP ≤ y then none
  else
    let x2 := (y * y + edP - 1) * invMod edP (edD * y * y + 1) % edP
    let x := powMod edP x2 255 ((edP + 3) / 8)
    let x := if x * x % edP = x2 then x else x * powMod edP 2 255 ((edP - 1) / 4) % edP
    if x * x % edP ≠ x2 then none
    else if x = 0 ∧ sign = 1 then none
    else some (if x % 2 = sign then x else edP - x)

/-- The sum of two points of the Edwards curve. -/
def edAdd (a b : Nat × Nat) : Nat × Nat :=
  let t := edD * (a.1 * b.1 % edP) % edP * (a.2 * b.2 % edP) % edP
  ((a.1 * b.2 + a.2 * b.1) * invMod edP (1 + t) % edP, (a.2 * b.2 + a.1 * b.1) * invMod edP (1 + edP - t) % edP)

/-- A multiple of a point, over `fuel` bits of the scalar. -/
def edMul (q : Nat × Nat) : Nat → Nat → Nat × Nat
  | 0, _ => (0, 1)
  | fuel + 1, k =>
    let h := edMul q fuel (k / 2)
    let d := edAdd h h
    if k % 2 = 1 then edAdd d q else d

/-- The base point. -/
def edBase : Nat × Nat :=
  let y := 4 * invMod edP 5 % edP
  ((edRecover y 0).getD 0, y)

/-- The encoding of a point. -/
def edEncode (q : Nat × Nat) : List Byte := leBytes 32 (q.2 + 2 ^ 255 * (q.1 % 2))

/-- The point that an encoding names. -/
def edDecode (b : List Byte) : Option (Nat × Nat) :=
  let v := ofLe b
  let y := v % 2 ^ 255
  match edRecover y (v / 2 ^ 255) with
  | some x => some (x, y)
  | none => none

/-- The secret scalar of a seed. -/
def edScalar (seed : List Byte) : Nat :=
  let h := ofLe ((sha512Bytes seed).take 32) % 2 ^ 254
  h - h % 8 + 2 ^ 254

/-- The public key of a seed. -/
def edPublic (seed : List Byte) : List Byte := edEncode (edMul edBase 255 (edScalar seed))

/-- Ed25519 signing (RFC 8032, 5.1.6). -/
def edSign (seed pub m : List Byte) : List Byte :=
  let r := ofLe (sha512Bytes ((sha512Bytes seed).drop 32 ++ m)) % edL
  let rb := edEncode (edMul edBase 255 r)
  let k := ofLe (sha512Bytes (rb ++ pub ++ m)) % edL
  rb ++ leBytes 32 ((r + k * edScalar seed) % edL)

/-- Ed25519 verification (RFC 8032, 5.1.7), with the cofactor of 8 in the group equation. -/
def edVerify (pub sig m : List Byte) : Bool :=
  let s := ofLe (sig.drop 32)
  match edDecode pub, edDecode (sig.take 32) with
  | some a, some r =>
    let k := ofLe (sha512Bytes (sig.take 32 ++ pub ++ m)) % edL
    decide (s < edL) && edMul (edMul edBase 255 s) 4 8 == edMul (edAdd r (edMul a 255 k)) 4 8
  | _, _ => false

/-! ## RSA -/

/-- The DigestInfo of SHA-256 before the digest. -/
def digestInfo : List Byte :=
  [0x30, 0x31, 0x30, 0x0d, 0x06, 0x09, 0x60, 0x86, 0x48, 0x01, 0x65, 0x03, 0x04, 0x02, 0x01, 0x05, 0x00, 0x04, 0x20]

/-- EMSA-PKCS1-v1_5 of a digest in k bytes. -/
def pkcs1Encode (k : Nat) (digest : List Byte) : List Byte :=
  let t := digestInfo ++ digest
  [0x00, 0x01] ++ List.replicate (k - t.length - 3) 0xFF ++ [0x00] ++ t

/-- MGF1 with SHA-256. -/
def mgf1 (seed : List Byte) (n : Nat) : List Byte :=
  (((List.range (cdiv n 32)).map fun i => sha256Bytes (seed ++ beBytes 4 i)).flatten).take n

/-- A number of `bits` bits' bytes with the bits above them cleared. -/
def maskTop (bits : Nat) (b : List Byte) : List Byte := beBytes b.length (ofBe b % 2 ^ bits)

/-- EMSA-PSS encoding of a digest with a salt of 32 bytes, in `bits` bits. -/
def pssEncode (bits : Nat) (digest salt : List Byte) : List Byte :=
  let len := cdiv bits 8
  let h := sha256Bytes (List.replicate 8 0 ++ digest ++ salt)
  let db := List.replicate (len - 66) 0 ++ [0x01] ++ salt
  maskTop bits (xorBytes db (mgf1 h (len - 33)) ++ h ++ [0xBC])

/-- EMSA-PSS verification of a digest. -/
def pssVerify (bits : Nat) (digest em : List Byte) : Bool :=
  let len := cdiv bits 8
  let h := (em.drop (len - 33)).take 32
  let masked := em.take (len - 33)
  let db := ofBe (xorBytes masked (mgf1 h (len - 33))) % 2 ^ (bits - 8 * 33)
  let db := beBytes (len - 33) db
  let salt := db.drop (len - 65)
  em.getLastD 0 == 0xBC && decide (ofBe em < 2 ^ bits) && db.take (len - 65) == List.replicate (len - 66) 0 ++ [0x01] &&
    h == sha256Bytes (List.replicate 8 0 ++ digest ++ salt)

/-- The message representative of a digest under a modulus of k bytes: PSS with a salt, or PKCS #1 v1.5. -/
def rsaEncode (pss : Bool) (k n : Nat) (digest salt : List Byte) : Nat :=
  if pss then ofBe (pssEncode n.log2 digest salt) else ofBe (pkcs1Encode k digest)

/-- The private operation by the Chinese remainder theorem on material n ‖ p ‖ q ‖ dp ‖ dq ‖ qInv. -/
def rsaPrivate (k : Nat) (mat : List Byte) (m : Nat) : Nat :=
  let part (i : Nat) : Nat := ofBe ((mat.drop (k + i * (k / 2))).take (k / 2))
  let p := part 0
  let q := part 1
  let m1 := powMod p (m % p) (4 * k) (part 2)
  let m2 := powMod q (m % q) (4 * k) (part 3)
  m2 + q * (part 4 * (m1 + p - m2 % p) % p)

/-- Verification of a signature under a modulus with the exponent 65537. -/
def rsaVerify (pss : Bool) (k n : Nat) (digest sig : List Byte) : Bool :=
  let s := ofBe sig
  if n ≤ s then false
  else
    let m := powMod n s 17 65537
    if pss then decide (m < 2 ^ (8 * cdiv n.log2 8)) && pssVerify n.log2 digest (beBytes (cdiv n.log2 8) m)
    else beBytes k m == pkcs1Encode k digest

end Sys2Proof.Machine
end

