-- ==== Sys2Proof/Machine/DataPort.lean ====
section
/-! DEFINITION. The data port of a core and attached memory as it meets it (R291, R461-R465), and the reports of the
HBM3E stacks (R467). -/
namespace Sys2Proof.Machine

/-! ## GO (R462) -/

/-- The length of a read burst (R462). -/
def burstLen (d : DataPort) : Nat := 64 * 2 ^ d.burst.toNat

/-- The authority of the data port: DPADDR, or at legacy level the default capability at DPADDR[51:0] (R462). -/
def dpAuth (s : State) (c : CoreId) : Auth :=
  let k := s.core c
  let ea := (capAddr k.dp.addr.val).toNat
  { cap := if k.legacy then legacyCap s c else k.dp.addr, ea := ea, reg := 34 }

/-- The checks of R462 for the burst that the port's fields describe. -/
def goFault (s : State) (c : CoreId) : Option Trap :=
  let d := (s.core c).dp
  let a := dpAuth s c
  let n := if d.dir then d.cnt.toNat else burstLen d
  firstTrap [tagSealFault a,
    if hasPerm a.cap.val (if d.dir then permST else permLD) then none else some (capTrap cPerm a.ea a.reg),
    if a.ea % 2 ^ d.inc.toNat ≠ 0 then some { code := cAlign, xaddr := BitVec.ofNat 52 a.ea, xinfo := 34 } else none,
    if inBounds a.cap.val a.ea n && inAttached a.ea n then none else some (capTrap cBounds a.ea a.reg)]

/-- A burst put on its way: at once on a lone core; on a pair, when the checker has compared it (R465). -/
def sendBurst (c : CoreId) (t : Nat) (r : DpReq) (act : Act) (s : State) : State :=
  if paired s c then holdAct c t 0 act s else sendRequest c r s

/-- GO that passed its checks, for the burst that the fields of d describe (R462). -/
def startBurst (c : CoreId) (t : Nat) (a : Auth) (d : DataPort) (s : State) : State :=
  let key := capKey a.cap.val
  let bytes := if d.dir then d.buf.take d.cnt.toNat else []
  let act : Act := .dpGo d.dir d.burst d.inc d.addr bytes key
  let move (p : DataPort) : DataPort :=
    if d.dir ∧ d.cnt ≠ 0 then { p with addr := moveAddr p.addr (capAddr p.addr.val + d.cnt.setWidth 52) } else p
  let s := s.modDp c fun p => { move p with busy := true, err := 0, keyr := false, cnt := 0, len := 0, buf := [] }
  sendBurst c t
    { addr := BitVec.ofNat 52 a.ea, key := key, go := t, kind := if d.dir then .write bytes else .read (burstLen d), twin := false } act s

/-- An MTS of DPCTL with GO = 1 that issues in cycle t: the burst takes the new fields at once, and they are written in t + 2
(R56, R462). -/
def dpGoBody (c : CoreId) (t : Nat) (v : TWord) (s : State) : Body :=
  let d := dpFields (s.core c).dp (v.val.setWidth 64)
  let fields := push c (t + 2) (.sys 0x15 v)
  if busyAt (s.core c).dp t then .done 1 (fields (s.modDp c fun d => { d with err := 3 }))
  else
    match goFault (s.modDp c fun _ => d) c with
    | some q => .trap q 0 s
    | none => .done 1 (fields (startBurst c t (dpAuth s c) d s))

/-- A key request of KEYW or KEYR on an attached frame (R291): as a GO, an overrun while BUSY. -/
def keyRequest (c : CoreId) (t : Nat) (a : Addr) (kind : DpKind) (act : Act) (s : State) : State :=
  if busyAt (s.core c).dp t then s.modDp c fun d => { d with err := 3 }
  else
    let read := kind == .keyr
    let s := s.modDp c fun d =>
      if read then { d with busy := true, err := 0, keyr := false, cnt := 0, len := 0, buf := [] }
      else { d with busy := true, err := 0 }
    sendBurst c t { addr := a, key := 0, go := t, kind := kind, twin := false } act s

/-! ## DPDATA (R464) -/

/-- MFS of DPDATA: the value, and the port after it. -/
def dpTake (d : DataPort) : Word × DataPort :=
  let n := 2 ^ d.inc.toNat
  if d.keyr then (BitVec.ofNat 128 (ofLe (d.buf.take 1)), { d with keyr := false, cnt := 0, len := 0, buf := [] })
  else if n ≤ d.cnt.toNat then
    let i := d.len - d.cnt.toNat
    (BitVec.ofNat 128 (ofLe (slice d.buf i n)),
     { d with cnt := d.cnt - BitVec.ofNat 13 n, addr := moveAddr d.addr (capAddr d.addr.val + BitVec.ofNat 52 n) })
  else (0, { d with err := 3 })

/-- MFS of DPDATA as an instruction body (R464). -/
def dpReadBody (c : CoreId) (g : Reg) (t : Nat) (s : State) : Body :=
  let (v, d) := dpTake (s.core c).dp
  .done 1 (pushReg c (t + 1) g v (s.modDp c fun _ => d))

/-! ## The response (R463) -/

/-- A reply delivered to a port whose BUSY falls so that DPWAIT issues from cycle `fall` on. -/
def deliverReply (r : DpReply) (fall : Nat) (d : DataPort) : DataPort :=
  let d := { d with busy := false, fall := fall, err := if r.err = 0 then d.err else r.err, bad := r.bad }
  match r.data with
  | some bs => { d with buf := bs, len := bs.length, cnt := BitVec.ofNat 13 bs.length, keyr := r.keyr }
  | none => d

/-- The port that holds the request whose response comes to core c: that of the other core of its pair where c's own has none. -/
def portOf (s : State) (c : CoreId) : CoreId :=
  let e := evenCore (pairOf c)
  if (s.core c).dp.req.isNone && ((s.core e).dp.req.any fun r => r.twin) then e else c

/-- DP_RESPONSE (R463, R465): the response of the outstanding burst of core c crosses back; a pair's burst is that of
its even core and its response reaches both ports, whether the pair is still formed or not. -/
def execDpResponse (c : CoreId) (s : State) : Host.Outcome State Fault Refusal :=
  let e := portOf s c
  match (s.core e).dp.req with
  | none => .next s
  | some r =>
    let x := max s.now (r.go + 3)
    let s := settle x s
    match (s.core e).dp.reply with
    | none => .next s
    | some rep =>
      let s := s.modDp e fun d => { deliverReply rep (x + 1) d with req := none, reply := none }
      let o := oddCore (pairOf e)
      .next (if r.twin && (s.core o).dp.busy && (s.core o).dp.req.isNone then s.modDp o (deliverReply rep (x + 3)) else s)

/-- DPWAIT (R463): held while BUSY, counting DPSTALL; at its release it acts on ERR. -/
def execDpwait (c : CoreId) (cond : Cond) (s : State) : Host.Outcome State Fault Refusal :=
  issue c { word := regWord cond 0x25 0 0 0 0 1, cond := cond, banned := true } (fun t s =>
    let d := (s.core c).dp
    if d.busy || decide (t < d.fall) then .held fun s => s.modDp c fun d => { d with stall := d.stall + 1 }
    else if d.err = 1 then .trap (capTrap cKey d.bad.toNat 34) 0 s
    else if d.err = 2 then .done 1 (machineCheck c (t + 1) 2 d.bad.toNat s)
    else .done 1 s) s

end Sys2Proof.Machine
end

