-- ==== Sys2Proof/Machine/Flow.lean ====
section
/-! DEFINITION. Branches (R66-R68, R118-R120), the prefixes IMM and RPT (R97, R176, R178), NOP, the calls SVC and
BASECALL (R322), and XRET (R319-R321). -/
namespace Sys2Proof.Machine

/-- A taken branch put in place: two delay slots, then the target under its PCC (R66). The place of its g31 in the
order of issue is taken here. -/
def takeBranch (c : CoreId) (target : TWord) (invoked : Option TWord) (s : State) : State :=
  let (n, s) := takeSeq c s
  s.modSeq c fun q => { q with branch := some { left := 2, taken := true, target := target, invoked := invoked, seq := n } }

/-- The form of a branch: banned from slot groups, with two delay slots whether taken or not (R67, R69). -/
def branchForm (word : BitVec 32) (cond : Cond) : Form :=
  { word := word, cond := cond, banned := true, branch := true }

/-- A branch to a target under a new PCC, with its checks and its link (R68, R119, R120). -/
def branchTo (c : CoreId) (t : Nat) (pre : Option Trap) (p : TWord) (reg : Nat) (link : Bool) (s : State) : Body :=
  let k := s.core c
  match firstTrap [pre, targetFault p.val (capAddr p.val).toNat reg] with
  | some q => .trap q 0 s
  | none =>
    let s := if link then pushCap c (t + 1) 30 (linkCap k) s else s
    .done 1 (takeBranch c p none s)

/-- B and BL: the target is the branch address plus 4 times DISP21 (R118). -/
def jumpBody (c : CoreId) (disp : BitVec 21) (link : Bool) (t : Nat) (s : State) : Body :=
  let k := s.core c
  let a := k.pc + 4 * BitVec.signExtend 52 disp
  branchTo c t none { k.x.pcc with val := setAddr k.x.pcc.val a } pccReg link s

/-- BR and BRL: gb becomes the PCC at its ADDR; at legacy level bits [51:0] of gb are the target under the current
PCC (R118, R119, R294). -/
def regBranchBody (c : CoreId) (gb : Reg) (link : Bool) (t : Nat) (s : State) : Body :=
  let k := s.core c
  let v := k.reg gb
  if k.legacy then
    branchTo c t none { k.x.pcc with val := setAddr k.x.pcc.val (capAddr v.val) } pccReg link s
  else
    let a := (capAddr v.val).toNat
    let pre :=
      if !v.tag then some (capTrap cTag a gb.val)
      else if isSealed v then some (capTrap cSeal a gb.val)
      else if !hasPerm v.val permEX then some (capTrap cPerm a gb.val)
      else none
    branchTo c t pre v gb.val link s

/-- The word of a jump (R92). -/
def jumpFmt (cond : Cond) (link : Bool) (disp : BitVec 21) : BitVec 32 :=
  rawFmt cond 0x20 ((if link then 1#1 else 0#1) ++ disp)

/-- B (R118). -/
def execB (c : CoreId) (cond : Cond) (disp : BitVec 21) (s : State) : Host.Outcome State Fault Refusal :=
  issue c (branchForm (jumpFmt cond false disp) cond) (jumpBody c disp false) s

/-- BL (R118, R68). -/
def execBl (c : CoreId) (cond : Cond) (disp : BitVec 21) (s : State) : Host.Outcome State Fault Refusal :=
  issue c (branchForm (jumpFmt cond true disp) cond) (jumpBody c disp true) s

/-- BR (R118). -/
def execBr (c : CoreId) (cond : Cond) (gb : Reg) (s : State) : Host.Outcome State Fault Refusal :=
  issue c (branchForm (regWord cond 0x21 0 0 gb 0 0) cond) (regBranchBody c gb false) s

/-- BRL (R118, R68). -/
def execBrl (c : CoreId) (cond : Cond) (gb : Reg) (s : State) : Host.Outcome State Fault Refusal :=
  issue c (branchForm (regWord cond 0x21 0 0 gb 0 1) cond) (regBranchBody c gb true) s

/-- NOP (R121). -/
def execNop (c : CoreId) (cond : Cond) (s : State) : Host.Outcome State Fault Refusal :=
  issue c { word := sysFmt cond 0 0 0, cond := cond } (fun _ s => .done 1 s) s

/-- The word of SVC and BASECALL (R92). -/
def callFmt (cond : Cond) (code : BitVec 12) (fn : BitVec 5) : BitVec 32 :=
  rawFmt cond 0x22 ((0 : BitVec 5) ++ code ++ fn)

/-- SVC (R322). -/
def execSvc (c : CoreId) (cond : Cond) (code : BitVec 12) (s : State) : Host.Outcome State Fault Refusal :=
  issue c { word := callFmt cond code 3, cond := cond, banned := true } (fun _ _ => .call false code) s

/-- BASECALL (R322). -/
def execBasecall (c : CoreId) (cond : Cond) (code : BitVec 12) (s : State) : Host.Outcome State Fault Refusal :=
  issue c { word := callFmt cond code 4, cond := cond, banned := true } (fun _ _ => .call true code) s

/-- XRET (R319, R320). -/
def execXret (c : CoreId) (cond : Cond) (s : State) : Host.Outcome State Fault Refusal :=
  issue c { word := sysFmt cond 0 0 5, cond := cond, banned := true } (fun t s =>
    let k := s.core c
    match needPcc k permSYSREG with
    | some q => .trap q 0 s
    | none =>
      match xretRefusal k with
      | some (code, info, addr) => .trap { code := code, xaddr := addr, xinfo := info } 0 s
      | none => .moved ((doXret c t s).modSeq c fun q => { q with slot := q.slot + 1, hold := none })) s

/-- IMM (R97, R98): the prefix waits for the instruction it extends. -/
def execImm (c : CoreId) (cond : Cond) (value : BitVec 22) (s : State) : Host.Outcome State Fault Refusal :=
  issue c { word := rawFmt cond 0x23 value, cond := cond, legal := cond == 14 && !lastOfGroup (s.core c).seq }
    (fun _ s => .done 1 (s.modSeq c fun q => { q with imm := some value })) s

/-- RPT (R176, R178): gc[31:0] is the count. -/
def execRpt (c : CoreId) (cond : Cond) (gc : Reg) (s : State) : Host.Outcome State Fault Refusal :=
  issue c { word := rawFmt cond 0x24 (rf gc ++ (0 : BitVec 17)), cond := cond, legal := cond == 14 && gc != 0, banned := true }
    (fun _ s =>
      let n : BitVec 32 := ((s.core c).reg gc).val.setWidth 32
      .done 1 (s.modSeq c fun q => { q with rpt := some { gc := gc, left := n, fresh := true } })) s

end Sys2Proof.Machine
end

