-- ==== Sys2Proof/Machine/LoadStore.lean ====
section
/-! DEFINITION. The scalar loads and stores (R114-R117, R299). -/
namespace Sys2Proof.Machine

/-- A load that passed its checks: the store buffer is compared in IS, and LDS and the LIS are read in E1 (R52, R75, R116, R117). -/
def doLoad (c : CoreId) (t : Nat) (dest : LoadDest) (a : Auth) (n : Nat) (s : State) : State :=
  match regionOf c a.ea n with
  | some (.lds at_) =>
    let ms := (s.core c).ms
    sendLocal c t dest (t + 4) [(at_, forwarded ms t a.ea n)] (forwardedTag ms t a.ea) (usePort c t 1 s)
  | some (.lis at_) => sendLocal c t dest (t + 4) [(at_, List.replicate n none)] none s
  | some _ => sendLoad c t a.ea n dest (capKey a.cap.val) (s.core c).atBase s
  | none => s

/-- A store that passed its checks: into the buffer, into the LIS in E1, or out to the fabric (R72, R84, R116). -/
def doStore (c : CoreId) (t : Nat) (a : Auth) (bytes : List Byte) (tag : Option Bool) (s : State) : State :=
  match regionOf c a.ea bytes.length with
  | some (.lds _) => enterBuffer c t a.ea bytes tag s
  | some (.lis at_) => schedule c (t + 2) 1 (.put at_ bytes tag) s
  | some _ => storeOut c t a.ea bytes tag (capKey a.cap.val) s
  | none => s

/-- The body of a scalar load (R115, R116). -/
def loadBody (c : CoreId) (gb : Reg) (off : BitVec 12) (n : Nat) (kind : AccKind) (dest : LoadDest) (t : Nat)
    (s : State) : Body :=
  let a := authOf s c gb (offAddr (s.core c) off)
  heldOr c t (loadNeeds c a.ea n) s
    (match accessFault s c a n kind with
     | some q => .trap q 0 s
     | none => .done 1 (doLoad c t dest a n (checkKeys c a n s)))

/-- The body of a scalar store (R115, R116). -/
def storeBody (c : CoreId) (gs gb : Reg) (off : BitVec 12) (n : Nat) (cap : Bool) (t : Nat) (s : State) : Body :=
  let k := s.core c
  let a := authOf s c gb (offAddr k off)
  let v := k.reg gs
  heldOr c t (storeNeeds c a.ea n) s
    (match accessFault s c a n (if cap then .storeCap gs v else .store) with
     | some q => .trap q 0 s
     | none => .done 1 (doStore c t a (leBytes n v.val.toNat) (if cap then some v.tag else none) (checkKeys c a n s)))

/-- A scalar load issued. -/
def loadIssue (c : CoreId) (cond : Cond) (op : BitVec 6) (g gb : Reg) (off : BitVec 12) (n : Nat) (sgn : Bool)
    (s : State) : Host.Outcome State Fault Refusal :=
  issue c { word := memFmt cond op g gb off, cond := cond, ext := .mem } (loadBody c gb off n .load (.reg g sgn)) s

/-- A scalar store issued. -/
def storeIssue (c : CoreId) (cond : Cond) (op : BitVec 6) (g gb : Reg) (off : BitVec 12) (n : Nat) (s : State) :
    Host.Outcome State Fault Refusal :=
  issue c { word := memFmt cond op g gb off, cond := cond, ext := .mem } (storeBody c g gb off n false) s

/-- LDB (R114). -/
def execLdb (c : CoreId) (cond : Cond) (g gb : Reg) (off : BitVec 12) (s : State) : Host.Outcome State Fault Refusal :=
  loadIssue c cond 0x10 g gb off 1 true s
/-- LDBU (R114). -/
def execLdbu (c : CoreId) (cond : Cond) (g gb : Reg) (off : BitVec 12) (s : State) : Host.Outcome State Fault Refusal :=
  loadIssue c cond 0x11 g gb off 1 false s
/-- LDH (R114). -/
def execLdh (c : CoreId) (cond : Cond) (g gb : Reg) (off : BitVec 12) (s : State) : Host.Outcome State Fault Refusal :=
  loadIssue c cond 0x12 g gb off 2 true s
/-- LDHU (R114). -/
def execLdhu (c : CoreId) (cond : Cond) (g gb : Reg) (off : BitVec 12) (s : State) : Host.Outcome State Fault Refusal :=
  loadIssue c cond 0x13 g gb off 2 false s
/-- LDW (R114). -/
def execLdw (c : CoreId) (cond : Cond) (g gb : Reg) (off : BitVec 12) (s : State) : Host.Outcome State Fault Refusal :=
  loadIssue c cond 0x14 g gb off 4 true s
/-- LDWU (R114). -/
def execLdwu (c : CoreId) (cond : Cond) (g gb : Reg) (off : BitVec 12) (s : State) : Host.Outcome State Fault Refusal :=
  loadIssue c cond 0x15 g gb off 4 false s
/-- LDD (R114). -/
def execLdd (c : CoreId) (cond : Cond) (g gb : Reg) (off : BitVec 12) (s : State) : Host.Outcome State Fault Refusal :=
  loadIssue c cond 0x16 g gb off 8 true s
/-- LDDU (R114). -/
def execLddu (c : CoreId) (cond : Cond) (g gb : Reg) (off : BitVec 12) (s : State) : Host.Outcome State Fault Refusal :=
  loadIssue c cond 0x17 g gb off 8 false s
/-- LDQ (R114). -/
def execLdq (c : CoreId) (cond : Cond) (g gb : Reg) (off : BitVec 12) (s : State) : Host.Outcome State Fault Refusal :=
  loadIssue c cond 0x18 g gb off 16 false s
/-- LDCAP (R114, R39, R294). -/
def execLdcap (c : CoreId) (cond : Cond) (g gb : Reg) (off : BitVec 12) (s : State) : Host.Outcome State Fault Refusal :=
  issue c { word := memFmt cond 0x19 g gb off, cond := cond, ext := .mem, legal := !(s.core c).legacy }
    (loadBody c gb off 16 .loadCap (.cap g)) s

/-- STB (R114). -/
def execStb (c : CoreId) (cond : Cond) (g gb : Reg) (off : BitVec 12) (s : State) : Host.Outcome State Fault Refusal :=
  storeIssue c cond 0x1A g gb off 1 s
/-- STH (R114). -/
def execSth (c : CoreId) (cond : Cond) (g gb : Reg) (off : BitVec 12) (s : State) : Host.Outcome State Fault Refusal :=
  storeIssue c cond 0x1B g gb off 2 s
/-- STW (R114). -/
def execStw (c : CoreId) (cond : Cond) (g gb : Reg) (off : BitVec 12) (s : State) : Host.Outcome State Fault Refusal :=
  storeIssue c cond 0x1C g gb off 4 s
/-- STD (R114). -/
def execStd (c : CoreId) (cond : Cond) (g gb : Reg) (off : BitVec 12) (s : State) : Host.Outcome State Fault Refusal :=
  storeIssue c cond 0x1D g gb off 8 s
/-- STQ (R114). -/
def execStq (c : CoreId) (cond : Cond) (g gb : Reg) (off : BitVec 12) (s : State) : Host.Outcome State Fault Refusal :=
  storeIssue c cond 0x1E g gb off 16 s
/-- STCAP (R114, R39, R294). -/
def execStcap (c : CoreId) (cond : Cond) (g gb : Reg) (off : BitVec 12) (s : State) : Host.Outcome State Fault Refusal :=
  issue c { word := memFmt cond 0x1F g gb off, cond := cond, ext := .mem, legal := !(s.core c).legacy }
    (storeBody c g gb off 16 true) s

end Sys2Proof.Machine
end

