-- ==== Sys2Proof/Machine/Capability.lean ====
section
/-! DEFINITION. The capability instructions, sealed invocation, and the frame key instructions (R275-R291, R295). -/
namespace Sys2Proof.Machine

/-! ## Shared operations -/

/-- The form of the instructions of opcodes 0x26 and 0x27: ILLEGAL at legacy level (R276). -/
def capForm (s : State) (c : CoreId) (cond : Cond) (op : BitVec 6) (gd ga gb : Reg) (fn : BitVec 5) : Form :=
  { word := regWord cond op gd ga gb 0 fn, cond := cond, legal := !(s.core c).legacy }

/-- A cause of an instruction that makes no access, naming a register (R303). -/
def opTrap (code : BitVec 8) (r : Reg) : Trap := capTrap code 0 r.val

/-- Tagged and unsealed, in that order (R276). -/
def needUnsealed (v : TWord) (r : Reg) : Option Trap :=
  if !v.tag then some (opTrap cTag r) else if isSealed v then some (opTrap cSeal r) else none

/-- A capability result at a distance, or the first of its causes. -/
def capBody (c : CoreId) (gd : Reg) (dist : Nat) (q : Option Trap) (v : TWord) (t : Nat) (s : State) : Body :=
  match q with
  | some q => .trap q 0 s
  | none => .done 1 (pushCap c (t + dist) gd v s)

/-- CMOV (R276, R295). -/
def execCmov (c : CoreId) (cond : Cond) (gd ga : Reg) (s : State) : Host.Outcome State Fault Refusal :=
  issue c (capForm s c cond 0x26 gd ga 0 0) (fun t s => capBody c gd 1 none (suppress s ((s.core c).reg ga)) t s) s

/-- CGETBASE (R276, R271). -/
def execCgetbase (c : CoreId) (cond : Cond) (gd ga : Reg) (s : State) : Host.Outcome State Fault Refusal :=
  issue c (capForm s c cond 0x26 gd ga 0 1) (fun t s =>
    let b := match capBounds ((s.core c).reg ga).val with | some b => b.base | none => 0
    .done 1 (pushReg c (t + 2) gd (BitVec.ofNat 128 b) s)) s

/-- CGETLEN (R276, R271). -/
def execCgetlen (c : CoreId) (cond : Cond) (gd ga : Reg) (s : State) : Host.Outcome State Fault Refusal :=
  issue c (capForm s c cond 0x26 gd ga 0 2) (fun t s =>
    let b := match capBounds ((s.core c).reg ga).val with | some b => b.top - b.base | none => 0
    .done 1 (pushReg c (t + 2) gd (BitVec.ofNat 128 b) s)) s

/-- CGETTAG (R276). -/
def execCgettag (c : CoreId) (cond : Cond) (gd ga : Reg) (s : State) : Host.Outcome State Fault Refusal :=
  issue c (capForm s c cond 0x26 gd ga 0 3) (fun t s =>
    let g := ((s.core c).reg ga).tag
    .done 1 (pushFlags c (t + 1) fZ (flag fZ (!g)) (pushReg c (t + 1) gd (if g then 1 else 0) s))) s

/-- R276, R279: a sealed operand of CSETADDR and CINCADDR. -/
def sealTrap (v : TWord) (r : Reg) : Option Trap := if isSealed v then some (opTrap cSeal r) else none

/-- CSETADDR (R276, R273). -/
def execCsetaddr (c : CoreId) (cond : Cond) (gd ga gb : Reg) (s : State) : Host.Outcome State Fault Refusal :=
  issue c (capForm s c cond 0x26 gd ga gb 4) (fun t s =>
    let k := s.core c
    let v := k.reg ga
    capBody c gd 1 (sealTrap v ga) (moveAddr v (capAddr (k.reg gb).val)) t s) s

/-- CINCADDR (R276, R273). -/
def execCincaddr (c : CoreId) (cond : Cond) (gd ga gb : Reg) (s : State) : Host.Outcome State Fault Refusal :=
  issue c (capForm s c cond 0x26 gd ga gb 5) (fun t s =>
    let k := s.core c
    let v := k.reg ga
    capBody c gd 1 (sealTrap v ga) (moveAddr v (capAddr v.val + capAddr (k.reg gb).val)) t s) s

/-- R277: the exponent for n bytes from b on. -/
def setbExp (b n : Nat) : Nat := findExp (fun e => decide (cdiv (b + n) (2 ^ e) - b / 2 ^ e ≤ 2 ^ 21 - 1)) 32 0

/-- R277: the bounds that CSETB forms, with whether they are exact; none where it raises CAP_BOUNDS. -/
def setBounds (v : TWord) (n : Nat) : Option (TWord × Bool) :=
  if n = 0 ∨ 2 ^ 52 < n then none
  else
    let b := (capAddr v.val).toNat
    let e := setbExp b n
    let b1 := b / 2 ^ e * 2 ^ e
    let t1 := cdiv (b + n) (2 ^ e) * 2 ^ e
    match capBounds v.val with
    | none => none
    | some o =>
      if b1 < o.base ∨ o.top < t1 then none
      else
        let w := putField v.val 94 (BitVec.ofNat 6 e)
        let w := putField w 52 (BitVec.ofNat 21 (b1 / 2 ^ e))
        let w := putField w 73 (BitVec.ofNat 21 (t1 / 2 ^ e))
        some ({ val := w, tag := true }, decide (b1 = b) && decide (t1 = b + n))

/-- CSETB (R277). -/
def execCsetb (c : CoreId) (cond : Cond) (gd ga gb : Reg) (s : State) : Host.Outcome State Fault Refusal :=
  issue c (capForm s c cond 0x26 gd ga gb 6) (fun t s =>
    let k := s.core c
    let v := k.reg ga
    match needUnsealed v ga with
    | some q => .trap q 0 s
    | none =>
      match setBounds v (k.reg gb).val.toNat with
      | none => .trap (opTrap cBounds ga) 0 s
      | some (r, exact_) => .done 1 (pushFlags c (t + 2) fZ (flag fZ exact_) (pushCap c (t + 2) gd r s))) s

/-- CANDP (R276). -/
def execCandp (c : CoreId) (cond : Cond) (gd ga gb : Reg) (s : State) : Host.Outcome State Fault Refusal :=
  issue c (capForm s c cond 0x26 gd ga gb 7) (fun t s =>
    let k := s.core c
    let v := k.reg ga
    capBody c gd 1 (needUnsealed v ga) { v with val := setPerms v.val (capPerms v.val &&& (k.reg gb).val.setWidth 14) } t s) s

/-- CSETKEY (R278). -/
def execCsetkey (c : CoreId) (cond : Cond) (gd ga gb : Reg) (s : State) : Host.Outcome State Fault Refusal :=
  issue c (capForm s c cond 0x26 gd ga gb 8) (fun t s =>
    let k := s.core c
    let v := k.reg ga
    let key : BitVec 4 := (k.reg gb).val.setWidth 4
    capBody c gd 1
      (firstTrap [needUnsealed v ga, if capKey v.val = 0 ∨ key = capKey v.val then none else some (opTrap cPerm ga)])
      { v with val := setKey v.val key } t s) s

/-- R279: an object type that belongs to software. -/
def softType (o : Nat) : Bool := decide (1 ≤ o) && decide (o ≤ 767)

/-- R279: the checks of CSEAL, in order. -/
def sealChecks (a b : TWord) (ga gb : Reg) : Option Trap :=
  let o := (capAddr b.val).toNat
  firstTrap [needUnsealed a ga, needUnsealed b gb, if hasPerm b.val permSEAL then none else some (opTrap cPerm gb),
    if softType o && inBounds b.val o 1 then none else some (opTrap cBounds gb)]

/-- CSEAL (R279). -/
def execCseal (c : CoreId) (cond : Cond) (gd ga gb : Reg) (s : State) : Host.Outcome State Fault Refusal :=
  issue c (capForm s c cond 0x26 gd ga gb 9) (fun t s =>
    let k := s.core c
    let a := k.reg ga
    let b := k.reg gb
    capBody c gd 1 (sealChecks a b ga gb) { a with val := setOtype a.val ((capAddr b.val).setWidth 10) } t s) s

/-- R280: the checks of CUNSEAL, in order. -/
def unsealChecks (a b : TWord) (ga gb : Reg) : Option Trap :=
  let o := (capAddr b.val).toNat
  firstTrap [if a.tag then none else some (opTrap cTag ga),
    if softType (capOtype a.val).toNat then none else some (opTrap cSeal ga), needUnsealed b gb,
    if hasPerm b.val permUNSEAL then none else some (opTrap cPerm gb),
    if o = (capOtype a.val).toNat then none else some (opTrap cSeal gb),
    if inBounds b.val o 1 then none else some (opTrap cBounds gb)]

/-- CUNSEAL (R280). -/
def execCunseal (c : CoreId) (cond : Cond) (gd ga gb : Reg) (s : State) : Host.Outcome State Fault Refusal :=
  issue c (capForm s c cond 0x26 gd ga gb 10) (fun t s =>
    let k := s.core c
    let a := k.reg ga
    capBody c gd 1 (unsealChecks a (k.reg gb) ga gb) (unsealed a) t s) s

/-- R281: ga is a subset of gb. -/
def capSubset (a b : TWord) : Bool :=
  match capBounds a.val, capBounds b.val with
  | some x, some y =>
    a.tag && b.tag && decide (y.base ≤ x.base) && decide (x.top ≤ y.top) &&
    (capPerms a.val &&& ~~~(capPerms b.val)) == 0 && (capKey b.val == 0 || capKey a.val == capKey b.val) &&
    capOtype a.val == capOtype b.val
  | _, _ => false

/-- CTSTSUB (R281). -/
def execCtstsub (c : CoreId) (cond : Cond) (ga gb : Reg) (s : State) : Host.Outcome State Fault Refusal :=
  issue c (capForm s c cond 0x26 0 ga gb 11) (fun t s =>
    let k := s.core c
    .done 1 (pushFlags c (t + 1) (fN ||| fZ) (flag fZ (capSubset (k.reg ga) (k.reg gb))) s)) s

/-- R282: the exponent for a length. -/
def lenExp (n : Nat) : Nat := findExp (fun e => decide (cdiv n (2 ^ e) ≤ 2 ^ 21 - 1)) 32 0

/-- R282: a length that CPREC and CALGN do not round. -/
def badLen (n : Nat) : Bool := decide (n = 0) || decide (2 ^ 52 < n)

/-- CPREC (R282). -/
def execCprec (c : CoreId) (cond : Cond) (gd gb : Reg) (s : State) : Host.Outcome State Fault Refusal :=
  issue c (capForm s c cond 0x26 gd 0 gb 12) (fun t s =>
    let n := ((s.core c).reg gb).val.toNat
    let e := lenExp n
    let v := if badLen n then 0 else cdiv n (2 ^ e) * 2 ^ e + e * 2 ^ 64
    .done 1 (pushReg c (t + 2) gd (BitVec.ofNat 128 v) s)) s

/-- CALGN (R282). -/
def execCalgn (c : CoreId) (cond : Cond) (gd ga gb : Reg) (s : State) : Host.Outcome State Fault Refusal :=
  issue c (capForm s c cond 0x26 gd ga gb 13) (fun t s =>
    let k := s.core c
    let n := (k.reg gb).val.toNat
    let a := (capAddr (k.reg ga).val).toNat
    let v := if badLen n then a else a / 2 ^ lenExp n * 2 ^ lenExp n
    .done 1 (pushReg c (t + 2) gd (BitVec.ofNat 128 v) s)) s

/-! ## Sealed invocation (R283) -/

/-- Checks 1 to 3 of R283. -/
def invokeChecks (a b : TWord) (ga gb : Reg) : Option Trap :=
  let tgt := (capAddr a.val).toNat
  let at_ (code : BitVec 8) (r : Reg) : Option Trap := some (capTrap code tgt r.val)
  if !a.tag then at_ cTag ga
  else if !b.tag then at_ cTag gb
  else if !softType (capOtype a.val).toNat then at_ cSeal ga
  else if capOtype b.val != capOtype a.val then at_ cSeal gb
  else if !hasPerm a.val permEX then at_ cPerm ga
  else if hasPerm b.val permEX then at_ cPerm gb
  else none

/-- CINVOKE (R283). -/
def execCinvoke (c : CoreId) (cond : Cond) (ga gb : Reg) (s : State) : Host.Outcome State Fault Refusal :=
  issue c { capForm s c cond 0x27 0 ga gb 0 with banned := true, branch := true } (fun t s =>
    let k := s.core c
    let a := k.reg ga
    let b := k.reg gb
    let p := unsealed a
    match firstTrap [invokeChecks a b ga gb, targetFault p.val (capAddr p.val).toNat ga.val] with
    | some q => .trap q 0 s
    | none => .done 1 (takeBranch c p (some (unsealed b)) (pushCap c (t + 1) 30 (linkCap k) s))) s

/-! ## Frame keys (R287-R291) -/

/-- R287: the checks of KEYW and, with `reads`, of KEYR. -/
def keyChecks (v : TWord) (ga : Reg) (reads : Bool) : Option Trap :=
  let a := (capAddr v.val).toNat
  let at_ (code : BitVec 8) : Option Trap := some (capTrap code a ga.val)
  let fs := frameSize a
  if !v.tag then at_ cTag
  else if isSealed v then at_ cSeal
  else if !(hasPerm v.val permKEYSET || (reads && hasPerm v.val permLD)) then at_ cPerm
  else if (keyCell a).isSome && inBounds v.val (a / fs * fs) fs then none
  else at_ cBounds

/-- A KEYW of a global frame performed as if issued in cycle t: every copy is written in t + 2 (R288). -/
def doKeyw (c : CoreId) (t frame : Nat) (b : Byte) (s : State) : State :=
  match keyCell frame with
  | some (true, f) => { s with keyActs := insertKeyAct (t + 2, c, f, b) s.keyActs }
  | _ => s

/-- KEYW (R287, R288, R290, R291). -/
def execKeyw (c : CoreId) (cond : Cond) (ga gb : Reg) (s : State) : Host.Outcome State Fault Refusal :=
  issue c (capForm s c cond 0x27 0 ga gb 1) (fun t s =>
    let k := s.core c
    let v := k.reg ga
    let b : Byte := (k.reg gb).val.setWidth 8 &&& 0x7F
    match keyChecks v ga false with
    | some q => .trap q 0 s
    | none =>
      let a := (capAddr v.val).toNat
      let f := a / frameSize a * frameSize a
      if inGlobal a 1 then
        .done 1 (if paired s c then holdAct c t 0 (.keyw f b) s else doKeyw c t f b s)
      else .done 1 (keyRequest c t (BitVec.ofNat 52 f) (.keyw b) (.keyw f b) s)) s

/-- KEYR (R287, R290, R291). -/
def execKeyr (c : CoreId) (cond : Cond) (gd ga : Reg) (s : State) : Host.Outcome State Fault Refusal :=
  issue c (capForm s c cond 0x27 gd ga 0 2) (fun t s =>
    let v := (s.core c).reg ga
    match keyChecks v ga true with
    | some q => .trap q 0 s
    | none =>
      let a := (capAddr v.val).toNat
      if inGlobal a 1 then
        let (n, s) := takeSeq c s
        .done 1 (schedule c (t + 2) 0 (.keyr a gd n) s)
      else
        let f := a / frameSize a * frameSize a
        .done 1 (keyRequest c t (BitVec.ofNat 52 f) .keyr (.keyr f) s)) s

end Sys2Proof.Machine
end

