-- ==== Sys2Proof/Machine/Engines.lean ====
section
/-! DEFINITION. The engines as units: submission (R378, R379), the three stages and their times (R382, R528), what the compute stage asks
of an operation before it runs (R529), write-back and completion (R381-R383, R528). -/
namespace Sys2Proof.Machine

/-! ## Submission (R378, R379) -/

/-- R378: the checks of ESUB, in order; its effective address is the descriptor's (R303). -/
def esubChecks (k : Core) (ga gb : Reg) : Option Trap :=
  let a := k.reg ga
  let ea := (capAddr a.val).toNat
  let no (code : BitVec 8) : Option Trap := some (capTrap code ea ga.val)
  let gbNo (code : BitVec 8) : Option Trap := some (capTrap code ea gb.val)
  firstTrap [
    if !a.tag then no cTag else none,
    if isSealed a then no cSeal else none,
    if hasPerm a.val permLD && hasPerm a.val permST && hasPerm a.val permENGINE then none else no cPerm,
    if ea % 64 ≠ 0 then some { code := cAlign, xaddr := BitVec.ofNat 52 ea, xinfo := 0 } else none,
    if inBounds a.val ea 64 && inGlobal ea 64 then none else no cBounds,
    if !(k.reg gb).tag then gbNo cTag else none,
    if isSealed (k.reg gb) then gbNo cSeal else none]

/-- ESUB (R378): an act on a pair, whose result comes with the comparison. The submissions of one cycle are taken in ascending core
number. -/
def execEsub (c : CoreId) (cond : Cond) (gd ga gb : Reg) (s : State) : Host.Outcome State Fault Refusal :=
  issue c (capForm s c cond 0x0A gd ga gb 0) (fun t s =>
    let k := s.core c
    let e := (k.reg gd).val.toNat % 64
    match esubChecks k ga gb with
    | some q => .trap q 0 s
    | none =>
      if paired s c then
        .done 1 (holdAct c t gd (.esub (BitVec.ofNat 6 e) (k.reg ga) (k.reg gb) k.atBase) s)
      else
        let (seq, s) := takeSeq c s
        .done 1 (schedule c t 2 (.esub e (k.reg ga) (k.reg gb) k.atBase (c, seq) [{ core := c, cycle := t, reg := gd, seq := seq }]) s)) s

/-- ENGINE_QUEUE_ENTRY (R379): the oldest accepted request enters its queue in its fabric cycle; a request of the loader
waits for an entry. -/
def execEngineQueueEntry (e : EngineId) (s : State) : Host.Outcome State Fault Refusal :=
  let s := settlePort s
  match s.engines[e].accepted with
  | [] => .next s
  | r :: _ =>
    let s := settle (max s.now (2 * r.entry)) s
    match r.source with
    | .journal _ _ => .next (modEngine e (fun g => { g with accepted := g.accepted.drop 1, jqueue := g.jqueue ++ [r] }) s)
    | .core _ _ => .next (modEngine e (fun g => { g with accepted := g.accepted.drop 1, queue := g.queue ++ [r] }) s)
    | .loader _ _ _ =>
      if 4 ≤ occupied s.engines[e] (s.now / 2) then .next s
      else .next (modEngine e (fun g =>
        { g with accepted := g.accepted.drop 1, queue := g.queue ++ [{ r with entry := max r.entry (s.now / 2) }] }) s)

/-! ## Fetch (R381, R382, R528) -/

/-- ENGINE_FETCH (R382, R528): the next request starts its fetch, with the read of its descriptor. A request of the journal unit or of the
loader brings its input with it. -/
def execEngineFetch (e : EngineId) (s : State) : Host.Outcome State Fault Refusal :=
  let s := settlePort s
  match fetchStart s.engines[e] with
  | none => .next s
  | some f0 =>
    match fetchNext s.engines[e] f0 with
    | none => .next s
    | some r =>
      let s := settle (max s.now (2 * f0)) s
      let s := modEngine e (fun g => { dequeue r g with fetch := some (stageUnknown r f0) }) s
      .next (if r.source.isCore then sendDesc e f0 r s else setStage e r f0 (fetchBare r) s)

/-- The state once the fetch of engine e has brought what it reads: as of the end of the fetch of a request that reads no input, and then as
of the start of its compute (R382). -/
def settleFetch (e : EngineId) (s : State) : State :=
  let s := match s.engines[e].fetch with
    | some st => if st.known then s else awaitBg (whoEngine e) bgFuel (settle (max s.now (2 * st.start + 2)) s)
    | none => s
  match s.engines[e].fetch with
  | some st => if st.known then settle (max s.now (2 * st.cmpStart)) s else s
  | none => s

/-! ## Compute -/

/-- What an operation sees when it runs. -/
structure OpIn where
  engine : EngineId
  desc : Desc
  input : List Byte
  keys : List KeyEntry

/-- An operation: its code, the keys it uses with the types and the USAGE bit each needs, whether it needs SYSREG
(R390), the DMK (R393) or random bits (R396), and what it does. -/
structure OpSpec where
  code : Nat
  keys : Desc → List (TWord × List Nat × Option Nat) := fun _ => []
  sysreg : Bool := false
  dmk : Bool := false
  drbg : Desc → Bool := fun _ => false
  body : OpIn → State → EngResult × State

/-- The keys that an operation names, none where one of them does not fit (R389, R529). -/
def opKeys (ks : KeyStore) : List (TWord × List Nat × Option Nat) → Option (List KeyEntry)
  | [] => some []
  | (h, types, use) :: r =>
    match keyNamed ks h, opKeys ks r with
    | some k, some l =>
      if types.contains k.ktype.toNat && (match use with | some b => k.usage.getLsbD b | none => true) then some (k :: l) else none
    | _, _ => none

/-- R396: whether an engine can answer a request for random bits. -/
def drbgReady (s : State) (e : EngineId) : Bool := s.drbg.state == 1 && decide (s.engines[e].drbg.count < 2 ^ 20)

/-- The key-store slots of the keys that an operation names, by their handles (R389, R529). -/
def slotsUsed (ks : KeyStore) (l : List (TWord × List Nat × Option Nat)) : List Nat :=
  (l.filter fun x => isHandle x.1).flatMap fun x =>
    match keyNamed ks x.1 with
    | some k => (List.range k.nslot).map fun i => k.slot + i
    | none => [(capAddr x.1.val).toNat % 65536]

/-- The single-bit errors in slots used are corrected and counted (R266, R388). -/
def softSlotsRead (l : List Nat) (s : State) : State :=
  (s.ks.softSlots.filter fun b => l.contains b).foldl (fun s _ => { s with slath := { s.slath with cecnt := satAdd s.slath.cecnt 1 } }) s

/-- R529: what a request gives, over the operation itself. An uncorrectable error in a key-store slot is reported as R269 gives; no address
reaches the key store, so the address that it is reported under is free (R383, R388; log entry 103). -/
def runOp (e : EngineId) (o : OpSpec) (st : EngStage) (s : State) : EngResult × State :=
  let d := st.desc
  if o.dmk && s.ks.zpend then (EngResult.of stZeroised, s)
  else if st.pre ≠ stOk then (EngResult.of st.pre, s)
  else if s.lean && (isHandle d.key1 || isHandle d.key2) then (EngResult.of stKeySuppressed, s)
  else
    let used := slotsUsed s.ks (o.keys d)
    match used.find? fun b => s.ks.badSlots.contains b with
    | some b => (EngResult.of stEcc, reportedEcc (Config.keyStoreAddr b).toNat s)
    | none =>
      let s := softSlotsRead used s
      if o.sysreg && st.req.source.isCore && !hasPerm st.req.ga.val permSYSREG then (EngResult.of stKeyInvalid, s)
      else
        match opKeys s.ks (o.keys d) with
        | none => (EngResult.of stKeyInvalid, s)
        | some keys =>
          if o.drbg d && !drbgReady s e then (EngResult.of stNotReady, s)
          else o.body { engine := e, desc := d, input := st.input, keys := keys } s

/-- The compute of the request fetched by engine e, where its operation is the one given: it starts in its fabric cycle,
and the key store is seen as it is there (R390). -/
def compute (e : EngineId) (o : OpSpec) (s : State) : Host.Outcome State Fault Refusal :=
  let s := settleFetch e s
  match s.engines[e].fetch with
  | none => .next s
  | some st =>
    if !st.known || st.refused || st.unread || st.pre == stBadOp || st.desc.op.toNat ≠ o.code then .next s
    else
      let (r, s) := runOp e o st s
      .next (modEngine e (fun g => { g with fetch := none, run := g.run ++ [{ st with result := r }] }) s)

/-! ## Write-back and completion (R381-R383, R528) -/

/-- The result that a request delivers: a marked request gives ZEROISED (R392). -/
def finalResult (st : EngStage) : EngResult := if st.req.marked then EngResult.of stZeroised else st.result

/-- The request at the end of its compute: the oldest computed, or a fetched one that no operation computes, which is one
refused by its frame or given BAD_OP (R381, R382). -/
def wbNext (g : Engine) : Option (EngStage × Engine) :=
  match g.run with
  | st :: r => some (st, { g with run := r })
  | [] =>
    match g.fetch with
    | some st => if st.known && (st.refused || st.pre == stBadOp) then some (st, { g with fetch := none }) else none
    | none => none

/-- The write-back of a request that starts in fabric cycle f1: the blocks of its output, then STATUS and OUTLEN (R381, R528). -/
def startWriteback (e : EngineId) (st : EngStage) (f1 : Nat) (r : EngResult) (s : State) : State :=
  match st.req.source with
  | .core _ _ =>
    if st.refused then s
    else schedule 0 (2 * (st.wbEnd - 129)) 0 (.engStatus e.val st.start) (sendOutput e st f1 r s)
  | _ => s

/-- ENGINE_WRITEBACK (R382, R528). -/
def execEngineWriteback (e : EngineId) (s : State) : Host.Outcome State Fault Refusal :=
  let s := if s.engines[e].run.isEmpty then settleFetch e s else s
  match wbNext s.engines[e] with
  | none => .next s
  | some (st, _) =>
    let s := settle (max s.now (2 * (st.cmpEnd + 1))) s
    let (st, g) := (wbNext s.engines[e]).getD (st, s.engines[e])
    let r := finalResult st
    let s := modEngine e (fun _ => { g with wb := g.wb ++ [{ st with result := r }] }) s
    .next (startWriteback e st (st.cmpEnd + 1) r s)

/-- The stage whose last cycle comes first. -/
def firstEnd : List EngStage → Option EngStage
  | [] => none
  | x :: r =>
    match firstEnd r with
    | some y => if y.wbEnd < x.wbEnd then some y else some x
    | none => some x

/-- The completion event of an engine, or the doorbell that a symmetric request asks for (R377, R385). -/
def completionEvent (e : EngineId) (st : EngStage) (r : Nat) (s : State) : State :=
  if e.val < 32 then raise (evNo (288 + e.val)) r s
  else if e.val = 32 then raise (evNo 320) r s
  else if !st.refused && st.desc.db && decide (st.desc.dbcore.toNat < coreCount s.grade) then raise (evNo st.desc.dbcore.toNat) r s
  else s

/-- What a request of the journal unit or of the loader hands back (R376, R419). -/
def handBack (st : EngStage) (s : State) : State :=
  match st.req.source with
  | .core _ _ => s
  | .journal n _ =>
    { s with jn := { s.jn with checks := s.jn.checks.map fun k =>
        if k.submitted && k.sig.isNone && k.job.seqNo == n then { k with sig := some (if st.result.status = stOk then st.result.out else []) } else k } }
  | .loader _ _ _ =>
    { s with cfg := { s.cfg with loader := { s.cfg.loader with
        job := s.cfg.loader.job.map fun j => { j with verdict := some (st.result.status == stOk) } } } }

/-- ENGINE_COMPLETION (R382, R528): in the last fabric cycle of write-back the request completes. -/
def execEngineCompletion (e : EngineId) (s : State) : Host.Outcome State Fault Refusal :=
  match firstEnd s.engines[e].wb with
  | none => .next s
  | some st =>
    let r := max s.now (2 * st.wbEnd)
    let s := settle r s
    let st := ((s.engines[e].wb.find? fun x => x.start = st.start)).getD st
    let s := modEngine e (fun g => { g with wb := g.wb.filter fun x => x.start ≠ st.start, done := g.done + 1 }) s
    let s := dropDone (whoEngine e) (engJob st.start 2) (dropDone (whoEngine e) (engJob st.start 3) s)
    .next (completionEvent e st r (handBack st s))

end Sys2Proof.Machine
end

