-- ==== Sys2Proof/Machine/CurveOps.lean ====
section
/-! DEFINITION. The operations of the curve engines and of the housekeeping engine (R384, R387, R532). -/
namespace Sys2Proof.Machine

/-- The USAGE bits of R388. -/
def useSign : Nat := 0
/-- USAGE.VERIFY. -/
def useVerify : Nat := 1
/-- USAGE.DERIVE. -/
def useDerive : Nat := 8

/-- The material of the first key that an operation uses. -/
def OpIn.mat (x : OpIn) : List Byte := match x.keys with | k :: _ => k.material | [] => []

/-- The key of a signature: a private key of one type with SIGN. -/
def signKey (t : Nat) (d : Desc) : List (TWord × List Nat × Option Nat) := [(d.key1, [t], some useSign)]

/-- The key of a verification: none where it comes in the input, else a public key, or a private key with its public
half, with VERIFY (log entry 20). -/
def verifyKey (types : List Nat) (d : Desc) : List (TWord × List Nat × Option Nat) :=
  if d.inline then [] else [(d.key1, types, some useVerify)]

/-- The last n bytes of a list. -/
def lastBytes (n : Nat) (l : List Byte) : List Byte := l.drop (l.length - n)

/-- An ECDSA signature under a private key, with a nonce from the DRBG. -/
def signBody (e : EngineId) (c : EcCurve) (d : Nat) (digest : List Byte) (s : State) : EngResult × State :=
  let (r, s) := engineDraw e (c.size + 8) s
  (EngResult.ok (ecdsaSign c d (ecScalar c r) digest), s)

/-- ECDSA signing (R384). -/
def ecdsaSignOp (code t : Nat) (c : EcCurve) : OpSpec :=
  { code := code, keys := signKey t, drbg := fun _ => true,
    body := fun x s => signBody x.engine c (ofBe (x.mat.take c.size)) x.input s }

/-- ECDSA verification (R384). -/
def ecdsaVerifyOp (code : Nat) (types : List Nat) (c : EcCurve) : OpSpec :=
  { code := code, keys := verifyKey types,
    body := fun x s =>
      let pub := if x.desc.inline then x.input.drop (3 * c.size) else lastBytes (2 * c.size) x.mat
      let ok := ecdsaVerify c pub (x.input.take c.size) ((x.input.drop c.size).take (2 * c.size))
      (if ok then EngResult.ok [] else EngResult.of stVerifyFail, s) }

/-- ECDSA_P256_SIGN (R384). -/
def execEcdsaP256Sign (e : EngineId) (s : State) : Host.Outcome State Fault Refusal := compute e (ecdsaSignOp 0x0101 0x07 p256) s
/-- ECDSA_P256_VERIFY (R384). -/
def execEcdsaP256Verify (e : EngineId) (s : State) : Host.Outcome State Fault Refusal :=
  compute e (ecdsaVerifyOp 0x0102 [0x08, 0x07] p256) s
/-- ECDSA_P384_SIGN (R384). -/
def execEcdsaP384Sign (e : EngineId) (s : State) : Host.Outcome State Fault Refusal := compute e (ecdsaSignOp 0x0103 0x09 p384) s
/-- ECDSA_P384_VERIFY (R384). -/
def execEcdsaP384Verify (e : EngineId) (s : State) : Host.Outcome State Fault Refusal :=
  compute e (ecdsaVerifyOp 0x0104 [0x0A, 0x09] p384) s

/-- ED25519_SIGN (R384). -/
def execEd25519Sign (e : EngineId) (s : State) : Host.Outcome State Fault Refusal :=
  compute e
    { code := 0x0105, keys := signKey 0x0B,
      body := fun x s => (EngResult.ok (edSign (x.mat.take 32) (lastBytes 32 x.mat) x.input), s) } s

/-- ED25519_VERIFY (R384): an inline key follows the message (log entry 20). -/
def execEd25519Verify (e : EngineId) (s : State) : Host.Outcome State Fault Refusal :=
  compute e
    { code := 0x0106, keys := verifyKey [0x0C, 0x0B],
      body := fun x s =>
        let pub := if x.desc.inline then lastBytes 32 x.input else lastBytes 32 x.mat
        let m := if x.desc.inline then x.input.take (x.input.length - 32) else x.input
        (if edVerify pub (m.take 64) (m.drop 64) then EngResult.ok [] else EngResult.of stVerifyFail, s) } s

/-- The first target slot (R390). -/
def Desc.slot (d : Desc) : Nat := d.par 0 2
/-- The USAGE to set (R390). -/
def Desc.usage (d : Desc) : BitVec 16 := BitVec.ofNat 16 (d.par 2 2)

/-- A handle as the engine writes it (R389). -/
def handleBytes (ks : KeyStore) (f : Nat) : List Byte := leBytes 16 (handleOf ks f).toNat

/-- A key created at slot f where its slots are free, with its handle as the output (R390). -/
def createKey (f t : Nat) (usage : BitVec 16) (label mat : List Byte) (s : State) : EngResult × State :=
  if !slotsFree s.ks f (keySlots t) then (EngResult.of stNoSlot, s)
  else
    let s := modKs (addKey f t usage label mat) s
    ({ status := stOk, out := handleBytes s.ks f, handles := 1 }, s)

/-- ECDH (R384, R532): the shared x-coordinate becomes a SECRET. -/
def ecdhOp (code t : Nat) (c : EcCurve) : OpSpec :=
  { code := code, keys := fun d => [(d.key1, [t], some useDerive)], sysreg := true,
    body := fun x s =>
      let f := x.desc.slot
      if !slotsFree s.ks f 1 then (EngResult.of stNoSlot, s)
      else match ecdhShared c (ofBe (x.mat.take c.size)) (x.input.drop 8) with
        | some z => createKey f 0x13 x.desc.usage (x.input.take 8) z s
        | none => (EngResult.of stVerifyFail, s) }

/-- ECDH_P256 (R384). -/
def execEcdhP256 (e : EngineId) (s : State) : Host.Outcome State Fault Refusal := compute e (ecdhOp 0x0107 0x07 p256) s
/-- ECDH_P384 (R384). -/
def execEcdhP384 (e : EngineId) (s : State) : Host.Outcome State Fault Refusal := compute e (ecdhOp 0x0108 0x09 p384) s

/-- The two keys of a pair, private and public, with their handles and the public key as the output (R384, R532). -/
def createPair (x : OpIn) (t1 t2 : Nat) (priv pub : List Byte) (s : State) : EngResult × State :=
  let f := x.desc.slot
  let f2 := f + keySlots t1
  if !slotsFree s.ks f (keySlots t1 + keySlots t2) then (EngResult.of stNoSlot, s)
  else
    let s := modKs (fun ks => addKey f2 t2 2 (x.input.take 8) pub (addKey f t1 x.desc.usage (x.input.take 8) priv ks)) s
    ({ status := stOk, out := handleBytes s.ks f ++ handleBytes s.ks f2 ++ pub, handles := 2 }, s)

/-- Key pair generation on a Weierstrass curve. -/
def ecPairOp (code t1 t2 : Nat) (c : EcCurve) : OpSpec :=
  { code := code, sysreg := true, drbg := fun _ => true,
    body := fun x s =>
      let (r, s) := engineDraw x.engine (c.size + 8) s
      let d := ecScalar c r
      let pub := ecPublic c d
      createPair x t1 t2 (beBytes c.size d ++ pub) pub s }

/-- KEY_PAIR_GENERATION_P256 (R384). -/
def execKeyPairGenerationP256 (e : EngineId) (s : State) : Host.Outcome State Fault Refusal :=
  compute e (ecPairOp 0x0109 0x07 0x08 p256) s
/-- KEY_PAIR_GENERATION_P384 (R384). -/
def execKeyPairGenerationP384 (e : EngineId) (s : State) : Host.Outcome State Fault Refusal :=
  compute e (ecPairOp 0x010A 0x09 0x0A p384) s
/-- KEY_PAIR_GENERATION_ED25519 (R384). -/
def execKeyPairGenerationEd25519 (e : EngineId) (s : State) : Host.Outcome State Fault Refusal :=
  compute e
    { code := 0x010B, sysreg := true, drbg := fun _ => true,
      body := fun x s =>
        let (seed, s) := engineDraw x.engine 32 s
        createPair x 0x0B 0x0C (seed ++ edPublic seed) (edPublic seed) s } s

/-- RSA signing under a modulus of k bytes (R384). -/
def rsaSignOp (code t k : Nat) : OpSpec :=
  { code := code, keys := signKey t, drbg := fun _ => true,
    body := fun x s =>
      let (salt, s) := engineDraw x.engine 32 s
      let n := ofBe (x.mat.take k)
      (EngResult.ok (beBytes k (rsaPrivate k x.mat (rsaEncode (x.desc.par 0 1 == 1) k n x.input salt))), s) }

/-- RSA verification under a modulus of k bytes; any exponent but 65537 is refused (R384). -/
def rsaVerifyOp (code t k : Nat) : OpSpec :=
  { code := code, keys := verifyKey [t],
    body := fun x s =>
      let pub := if x.desc.inline then x.input.drop (32 + k) else x.mat
      if ofBe (pub.drop k) ≠ 65537 then (EngResult.of stKeyInvalid, s)
      else
        let ok := rsaVerify (x.desc.par 0 1 == 1) k (ofBe (pub.take k)) (x.input.take 32) ((x.input.drop 32).take k)
        (if ok then EngResult.ok [] else EngResult.of stVerifyFail, s) }

/-- RSA_SIGN_2048 (R384). -/
def execRsaSign2048 (e : EngineId) (s : State) : Host.Outcome State Fault Refusal := compute e (rsaSignOp 0x0111 0x0D 256) s
/-- RSA_SIGN_3072 (R384). -/
def execRsaSign3072 (e : EngineId) (s : State) : Host.Outcome State Fault Refusal := compute e (rsaSignOp 0x0112 0x0E 384) s
/-- RSA_SIGN_4096 (R384). -/
def execRsaSign4096 (e : EngineId) (s : State) : Host.Outcome State Fault Refusal := compute e (rsaSignOp 0x0113 0x0F 512) s
/-- RSA_VERIFY_2048 (R384). -/
def execRsaVerify2048 (e : EngineId) (s : State) : Host.Outcome State Fault Refusal := compute e (rsaVerifyOp 0x0114 0x10 256) s
/-- RSA_VERIFY_3072 (R384). -/
def execRsaVerify3072 (e : EngineId) (s : State) : Host.Outcome State Fault Refusal := compute e (rsaVerifyOp 0x0115 0x11 384) s
/-- RSA_VERIFY_4096 (R384). -/
def execRsaVerify4096 (e : EngineId) (s : State) : Host.Outcome State Fault Refusal := compute e (rsaVerifyOp 0x0116 0x12 512) s

/-- The die's identity private key, fixed at manufacture (R387; log entry 9). -/
def identityScalar : Nat := Config.identityKey % (p384.n - 1) + 1

/-- IDSIGN (R387): on engine 32, for the journal unit or for a request from base level. -/
def execIdsign (s : State) : Host.Outcome State Fault Refusal :=
  compute 32 { code := 0x0180, drbg := fun _ => true, body := fun x s => signBody x.engine p384 identityScalar x.input s } s

end Sys2Proof.Machine
end

