-- ==== Sys2Proof/Machine/Tdes.lean ====
section
/-! DEFINITION. Triple DES with two or three keys (R385, R388). -/
namespace Sys2Proof.Machine

/-- The eight S-boxes of DES, 64 entries of four bits each, row by row. -/
def desBoxes : List Nat :=
  [0xe4d12fb83a6c59070f74e2d1a6cb953841e8d62bfc973a50fc8249175b3ea06d,
   0xf18e6b34972dc05a3d47f28ec01a69b50e7ba4d158c6932fd8a13f42b67c05e9,
   0xa09e63f51dc7b428d709346a285ecbf1d6498f30b12c5ae71ad069874fe3b52c,
   0x7de3069a1285bc4fd8b56f03472c1ae9a690cb7df13e52843f06a1d8945bc72e,
   0x2c417ab6853fd0e9eb2c47d150fa3986421bad78f9c5630eb8c71e2d6f09a453,
   0xc1af92680d34e75baf427c9561de0b389ef528c3704a1db6432c95fabe17608d,
   0x4b2ef08d3c975a61d0b7491ae35c2f8614bdc37eaf6805926bd814a7950fe23c,
   0xd2846fb1a93e50c71fd8a374c56b0e927b419ce206adf35821e74a8dfc90356b]
/-- The permutation P. -/
def desP : List Nat :=
  [16, 7, 20, 21, 29, 12, 28, 17, 1, 15, 23, 26, 5, 18, 31, 10, 2, 8, 24, 14, 32, 27, 3, 9, 19, 13, 30, 6, 22, 11, 4, 25]
/-- Permuted choice 1, which leaves the parity bits out. -/
def desPC1 : List Nat :=
  [57, 49, 41, 33, 25, 17, 9, 1, 58, 50, 42, 34, 26, 18, 10, 2, 59, 51, 43, 35, 27, 19, 11, 3, 60, 52, 44, 36,
   63, 55, 47, 39, 31, 23, 15, 7, 62, 54, 46, 38, 30, 22, 14, 6, 61, 53, 45, 37, 29, 21, 13, 5, 28, 20, 12, 4]
/-- Permuted choice 2. -/
def desPC2 : List Nat :=
  [14, 17, 11, 24, 1, 5, 3, 28, 15, 6, 21, 10, 23, 19, 12, 4, 26, 8, 16, 7, 27, 20, 13, 2,
   41, 52, 31, 37, 47, 55, 30, 40, 51, 45, 33, 48, 44, 49, 39, 56, 34, 53, 46, 42, 50, 36, 29, 32]
/-- The total rotation of each key half before the sub-key of each round. -/
def desShifts : List Nat := [1, 2, 4, 6, 8, 10, 12, 14, 15, 17, 19, 21, 23, 25, 27, 28]

/-- Bits of an n-bit number picked in order, bit 1 being the most significant. -/
def pickBits (n : Nat) (table : List Nat) (x : Nat) : Nat := table.foldl (fun a p => 2 * a + x / 2 ^ (n - p) % 2) 0

/-- The initial permutation, as bit numbers. -/
def desIP : List Nat := (List.range 64).map fun i => [58, 60, 62, 64, 57, 59, 61, 63].getD (i / 8) 0 - 8 * (i % 8)
/-- The final permutation, as bit numbers. -/
def desFP : List Nat := (List.range 64).map fun i => [40, 8, 48, 16, 56, 24, 64, 32].getD (i % 8) 0 - i / 8
/-- The expansion of a half block, as bit numbers. -/
def desE : List Nat := (List.range 48).map fun i => (4 * (i / 6) + i % 6 + 31) % 32 + 1

/-- The sixteen sub-keys of an 8-byte key. -/
def desKeys (key : List Byte) : List Nat :=
  let k := pickBits 64 desPC1 (ofBe key)
  desShifts.map fun s =>
    let turn (h : Nat) : Nat := (h * 2 ^ s + h / 2 ^ (28 - s)) % 2 ^ 28
    pickBits 56 desPC2 (turn (k / 2 ^ 28) * 2 ^ 28 + turn (k % 2 ^ 28))

/-- The round function on a half block. -/
def desF (r k : Nat) : Nat :=
  let x := pickBits 32 desE r ^^^ k
  pickBits 32 desP ((desBoxes.zipIdx).foldl (fun a (box, i) =>
    let v := x / 2 ^ (6 * (7 - i)) % 64
    let e := 16 * (2 * (v / 32) + v % 2) + v / 2 % 16
    16 * a + box / 2 ^ (4 * (63 - e)) % 16) 0)

/-- One block under sub-keys in the order of their use. -/
def desBlock (ks : List Nat) (b : List Byte) : List Byte :=
  let x := pickBits 64 desIP (ofBe b)
  let (l, r) := ks.foldl (fun (l, r) k => (r, l ^^^ desF r k)) (x / 2 ^ 32, x % 2 ^ 32)
  beBytes 8 (pickBits 64 desFP (r * 2 ^ 32 + l))

/-- One block of triple DES under a key of 16 or 24 bytes: encrypt, decrypt, encrypt, or undone. -/
def tdesBlock (dec : Bool) (key b : List Byte) : List Byte :=
  let k1 := desKeys (key.take 8)
  let k2 := desKeys ((key.drop 8).take 8)
  let k3 := if key.length = 24 then desKeys (key.drop 16) else k1
  if dec then desBlock k1.reverse (desBlock k2 (desBlock k3.reverse b)) else desBlock k3 (desBlock k2.reverse (desBlock k1 b))

end Sys2Proof.Machine
end

