-- ==== Sys2Proof/Machine/SymOps.lean ====
section
/-! DEFINITION. The operations of the symmetric engines (R385): block ciphers, hashes, MACs, PIN translation (R386),
random bytes, and the key operations (R390, R391, R532). -/
namespace Sys2Proof.Machine

/-- USAGE.ENCRYPT or USAGE.DECRYPT by the direction of a request (R388). -/
def cipherUse (d : Desc) : Option Nat := some (if d.dec then 3 else 2)
/-- USAGE.MAC. -/
def useMac : Nat := 4
/-- USAGE.UNWRAP. -/
def useUnwrap : Nat := 6
/-- USAGE.PIN. -/
def usePin : Nat := 7
/-- USAGE.EXPORT. -/
def useExport : Nat := 9

/-- The key of a cipher operation. -/
def cipherKey (types : List Nat) (d : Desc) : List (TWord × List Nat × Option Nat) := [(d.key1, types, cipherUse d)]
/-- The key of a MAC operation. -/
def macKey (types : List Nat) (d : Desc) : List (TWord × List Nat × Option Nat) := [(d.key1, types, some useMac)]

/-- One AES block in the direction of a request. -/
def aesDir (d : Desc) (key : List Byte) : List Byte → List Byte := if d.dec then aesDec (aesKeys key) else aesEnc (aesKeys key)

/-- AES_ECB (R385). -/
def execAesEcb (e : EngineId) (s : State) : Host.Outcome State Fault Refusal :=
  compute e { code := 0x0201, keys := cipherKey [1, 2],
              body := fun x s => (EngResult.ok (ecbMode 16 (aesDir x.desc x.mat) x.input), s) } s

/-- AES_CBC (R385). -/
def execAesCbc (e : EngineId) (s : State) : Host.Outcome State Fault Refusal :=
  compute e { code := 0x0202, keys := cipherKey [1, 2],
              body := fun x s =>
                (EngResult.ok (cbcMode 16 x.desc.dec (aesDir x.desc x.mat) (x.input.take 16) (x.input.drop 16)), s) } s

/-- AES_GCM (R385): a failed tag gives no plaintext. -/
def execAesGcm (e : EngineId) (s : State) : Host.Outcome State Fault Refusal :=
  compute e { code := 0x0203, keys := cipherKey [1, 2],
              body := fun x s =>
                let f := aesEnc (aesKeys x.mat)
                let a := x.desc.par 0 4
                let nonce := x.input.take 12
                let aad := (x.input.drop 12).take a
                let text := x.input.drop (12 + a)
                if x.desc.dec then
                  let c := text.take (text.length - 16)
                  (if gcmTag f nonce aad c == lastBytes 16 text then EngResult.ok (gcmCtr f nonce c) else EngResult.of stVerifyFail, s)
                else
                  let c := gcmCtr f nonce text
                  (EngResult.ok (c ++ gcmTag f nonce aad c), s) } s

/-- A MAC computed, or with DEC verified against the end of the input. -/
def macResult (x : OpIn) (n : Nat) (mac : List Byte → List Byte) : EngResult :=
  if x.desc.dec then
    if mac (x.input.take (x.input.length - n)) == lastBytes n x.input then EngResult.ok [] else EngResult.of stVerifyFail
  else EngResult.ok (mac x.input)

/-- AES_CMAC (R385). -/
def execAesCmac (e : EngineId) (s : State) : Host.Outcome State Fault Refusal :=
  compute e { code := 0x0204, keys := macKey [1, 2], body := fun x s => (macResult x 16 (aesCmacBytes x.mat), s) } s

/-- TDES_ECB (R385). -/
def execTdesEcb (e : EngineId) (s : State) : Host.Outcome State Fault Refusal :=
  compute e { code := 0x0205, keys := cipherKey [3, 4],
              body := fun x s => (EngResult.ok (ecbMode 8 (tdesBlock x.desc.dec x.mat) x.input), s) } s

/-- TDES_CBC (R385). -/
def execTdesCbc (e : EngineId) (s : State) : Host.Outcome State Fault Refusal :=
  compute e { code := 0x0206, keys := cipherKey [3, 4],
              body := fun x s =>
                (EngResult.ok (cbcMode 8 x.desc.dec (tdesBlock x.desc.dec x.mat) (x.input.take 8) (x.input.drop 8)), s) } s

/-- SHA_256 (R385). -/
def execSha256 (e : EngineId) (s : State) : Host.Outcome State Fault Refusal :=
  compute e { code := 0x0207, body := fun x s => (EngResult.ok (sha256Bytes x.input), s) } s
/-- SHA_384 (R385). -/
def execSha384 (e : EngineId) (s : State) : Host.Outcome State Fault Refusal :=
  compute e { code := 0x0208, body := fun x s => (EngResult.ok (sha384Bytes x.input), s) } s
/-- SHA3_256 (R385). -/
def execSha3256 (e : EngineId) (s : State) : Host.Outcome State Fault Refusal :=
  compute e { code := 0x0209, body := fun x s => (EngResult.ok (sha3Bytes x.input), s) } s

/-- HMAC_SHA_256 (R385, R388): a SECRET serves as a key of its length. -/
def execHmacSha256 (e : EngineId) (s : State) : Host.Outcome State Fault Refusal :=
  compute e { code := 0x020A, keys := macKey [0x05, 0x13],
              body := fun x s =>
                if x.mat.length ≠ 32 then (EngResult.of stKeyInvalid, s)
                else (macResult x 32 (hmacBytes sha256Bytes 64 x.mat), s) } s

/-- HMAC_SHA_384 (R385, R388). -/
def execHmacSha384 (e : EngineId) (s : State) : Host.Outcome State Fault Refusal :=
  compute e { code := 0x020B, keys := macKey [0x06, 0x13],
              body := fun x s =>
                if x.mat.length ≠ 48 then (EngResult.of stKeyInvalid, s)
                else (macResult x 48 (hmacBytes sha384Bytes 128 x.mat), s) } s

/-! ## PIN translation (R386) -/

/-- The nibbles of a byte string, first first. -/
def nibbles (b : List Byte) : List Nat := (b.map fun x => [x.toNat / 16, x.toNat % 16]).flatten
/-- Bytes from nibbles. -/
def packNibbles (l : List Nat) : List Byte := (chunks 2 l.length l).map fun p => BitVec.ofNat 8 (p.getD 0 0 * 16 + p.getD 1 0)

/-- A digit of the PAN (log entry 19). -/
def panNibble (b : Byte) : Nat := if 0x30 ≤ b ∧ b ≤ 0x39 then b.toNat - 0x30 else Config.panDigit b % 16

/-- The PAN field of formats 0 and 3: the 12 rightmost digits without the check digit, padded on the left with zeros (ISO 9564-1). -/
def panField (pan : List Byte) : List Byte :=
  let rest := pan.dropLast
  let digits := (rest.drop (rest.length - 12)).map panNibble
  packNibbles (List.replicate (16 - digits.length) 0 ++ digits)

/-- The plaintext PAN field of format 4: the length over 12, then the digits. -/
def panBlock (pan : List Byte) : List Byte :=
  let l := (pan.length - 12) :: pan.map panNibble
  packNibbles (l ++ List.replicate (32 - l.length) 0)

/-- The PIN of a block in clear, none where the block is not valid in its format (ISO 9564-1). -/
def pinOf (format : Nat) (b : List Byte) : Option (List Nat) :=
  let n := nibbles b
  let len := n.getD 1 0
  let pin := (n.drop 2).take len
  let fill := ((n.take 16).drop (2 + len))
  let okFill := match format with
    | 0 => fill.all (· == 15)
    | 3 => fill.all fun x => decide (10 ≤ x)
    | 4 => fill.all (· == 10)
    | _ => true
  if n.getD 0 0 == format && decide (4 ≤ len) && decide (len ≤ 12) && pin.all (fun x => decide (x ≤ 9)) && okFill then some pin else none

/-- A PIN block in clear, with random bytes for the fill that is random. -/
def pinClear (format : Nat) (pin : List Nat) (r : List Byte) : List Byte :=
  let n := 14 - pin.length
  let fill := match format with
    | 0 => List.replicate n 15
    | 1 => (r.map fun b => b.toNat % 16).take n
    | 3 => (r.map fun b => 10 + b.toNat % 6).take n
    | _ => List.replicate n 10
  packNibbles (format :: pin.length :: pin ++ fill)

/-- A PIN block deciphered under its key: the block in clear. -/
def pinDecrypt (format : Nat) (key pan b : List Byte) : List Byte :=
  if format = 4 then
    let f := aesDec (aesKeys key)
    f (xorBytes (f b) (panBlock pan))
  else
    let c := tdesBlock true key b
    if format = 1 then c else xorBytes c (panField pan)

/-- A PIN block in clear enciphered under its key, with eight random bytes more for format 4. -/
def pinEncrypt (format : Nat) (key pan b r : List Byte) : List Byte :=
  if format = 4 then
    let f := aesEnc (aesKeys key)
    f (xorBytes (f (b ++ r)) (panBlock pan))
  else if format = 1 then tdesBlock false key b
  else tdesBlock false key (xorBytes b (panField pan))

/-- The key types of a PIN format. -/
def pinTypes (format : Nat) : List Nat := if format = 4 then [1, 2] else [3, 4]

/-- PIN_TRANSLATION (R386). -/
def execPinTranslation (e : EngineId) (s : State) : Host.Outcome State Fault Refusal :=
  compute e
    { code := 0x020C,
      keys := fun d => [(d.key1, pinTypes (d.par 0 1), some usePin), (d.key2, pinTypes (d.par 1 1), some usePin)],
      drbg := fun d => d.par 1 1 ≠ 0,
      body := fun x s =>
        let src := x.desc.par 0 1
        let dst := x.desc.par 1 1
        let blk := x.input.take (pinBlock src)
        let pan := x.input.drop (pinBlock src)
        let k2 := (x.keys.getD 1 { slot := 0, ktype := 0, nslot := 0, usage := 0, label := [], material := [] }).material
        if dst = 1 ∧ src ≠ 1 then (EngResult.of stDenied, s)
        else match pinOf src (pinDecrypt src x.mat pan blk) with
          | none => (EngResult.of stPinFormat, s)
          | some pin =>
            let (r, s) := if dst = 0 then ([], s) else engineDraw x.engine 16 s
            (EngResult.ok (pinEncrypt dst k2 pan (pinClear dst pin r) (r.take 8)), s) } s

/-! ## Random bytes -/

/-- RAND (R385): INLEN is the length of the output. -/
def execRand (e : EngineId) (s : State) : Host.Outcome State Fault Refusal :=
  compute e { code := 0x020D, drbg := fun _ => true,
              body := fun x s =>
                let (r, s) := engineDraw x.engine x.desc.inlen s
                (EngResult.ok r, s) } s

/-! ## Key operations (R390, R391) -/

/-- KGEN (R390): a new symmetric key of TYPE from the DRBG. The type is judged before the DRBG (R529). -/
def execKgen (e : EngineId) (s : State) : Host.Outcome State Fault Refusal :=
  compute e { code := 0x0301, sysreg := true,
              body := fun x s =>
                let t := x.desc.par 4 1
                if t = 0 ∨ 6 < t then (EngResult.of stKeyInvalid, s)
                else if !drbgReady s e then (EngResult.of stNotReady, s)
                else
                  let (m, s) := engineDraw x.engine (keyBytes t) s
                  createKey x.desc.slot t x.desc.usage x.input m s } s

/-- R532: the scalar of an EC private key is 1 to the order less 1. -/
def scalarOk (t : Nat) (mat : List Byte) : Bool :=
  let in_ (c : EcCurve) : Bool := let d := ofBe (mat.take c.size); decide (0 < d) && decide (d < c.n)
  if t = 0x07 then in_ p256 else if t = 0x09 then in_ p384 else true

/-- Unwrapped material installed, after the checks of R532 in the order of R529. -/
def installKey (f t : Nat) (usage : BitVec 16) (label : List Byte) (mat : Option (List Byte)) (fits : List Byte → Bool)
    (s : State) : EngResult × State :=
  match mat with
  | none => (EngResult.of (if slotsFree s.ks f (keySlots t) then stVerifyFail else stNoSlot), s)
  | some m => if !fits m || !scalarOk t m then (EngResult.of stKeyInvalid, s) else createKey f t usage label m s

/-- KIMP (R390, R532): AES-KWP input under KEY1 into a key of TYPE. A failed integrity check gives VERIFY_FAIL, and
material of another length KEY_INVALID (log entry 20). -/
def execKimp (e : EngineId) (s : State) : Host.Outcome State Fault Refusal :=
  compute e { code := 0x0302, sysreg := true, keys := fun d => [(d.key1, [1, 2], some useUnwrap)],
              body := fun x s =>
                let t := x.desc.par 4 1
                if keySlots t = 0 then (EngResult.of stKeyInvalid, s)
                else
                  installKey x.desc.slot t x.desc.usage (x.input.take 8) (kwpUnwrap x.mat (x.input.drop 8))
                    (fun m => m.length == keyBytes t || (t == 0x13 && m.length == 32)) s } s

/-- KPUB (R390): a public key in plain form, with no USAGE but VERIFY. -/
def execKpub (e : EngineId) (s : State) : Host.Outcome State Fault Refusal :=
  compute e { code := 0x0303, sysreg := true,
              body := fun x s =>
                let t := x.desc.par 4 1
                let m := x.input.drop 8
                let n := keyBytes t - 4
                if !isPublicType t || (decide (0x10 ≤ t) && ofBe (m.drop n) ≠ 65537) then (EngResult.of stKeyInvalid, s)
                else createKey x.desc.slot t (x.desc.usage &&& 2) (x.input.take 8) m s } s

/-- The slots of a key as bytes, with GEN written as 0 (R388, R391). -/
def keyImage (k : KeyEntry) : List Byte :=
  padTo (64 * k.nslot)
    ([BitVec.ofNat 8 k.ktype.toNat, BitVec.ofNat 8 k.nslot] ++ leBytes 2 k.usage.toNat ++ [0, 0, 0, 0] ++ padTo 8 k.label ++ k.material)

/-- The DMK as a request finds it: none while it is not held or its erase is pending (R391, R393). -/
def dmkNow (ks : KeyStore) : Option (List Byte) := if ks.dmkValid && !ks.zpend then ks.dmk else none

/-- A request that would use the DMK and finds none: ZEROISED while its erase is pending (R393), else KEY_INVALID
(log entry 20). -/
def noDmk (ks : KeyStore) : EngResult := EngResult.of (if ks.zpend then stZeroised else stKeyInvalid)

/-- KEXP (R390, R391). -/
def execKexp (e : EngineId) (s : State) : Host.Outcome State Fault Refusal :=
  compute e { code := 0x0304, sysreg := true, dmk := true, keys := fun d => [(d.key1, (List.range 20), some useExport)],
              body := fun x s =>
                match dmkNow s.ks, x.keys with
                | some d, k :: _ => (EngResult.ok (kwpWrap d (keyImage k)), s)
                | _, _ => (noDmk s.ks, s) } s

/-- The material of a restored image: a SECRET is of 32 bytes where the 16 after them are 0 (log entry 20). -/
def imageMaterial (t : Nat) (img : List Byte) : List Byte :=
  let m := (img.drop 16).take (keyBytes t)
  if t = 0x13 ∧ (m.drop 32).all (· == 0) then m.take 32 else m

/-- KRST (R390, R391, R532): the export restored at f, with the USAGE and LABEL that it carries (log entry 20). -/
def execKrst (e : EngineId) (s : State) : Host.Outcome State Fault Refusal :=
  compute e { code := 0x0305, sysreg := true, dmk := true,
              body := fun x s =>
                match dmkNow s.ks with
                | none => (noDmk s.ks, s)
                | some d =>
                  let n := x.input.length / 64
                  match kwpUnwrap d x.input with
                  | none => (EngResult.of (if slotsFree s.ks x.desc.slot n then stVerifyFail else stNoSlot), s)
                  | some img =>
                    let t := (img.getD 0 0).toNat
                    let ok := decide (img.length = 64 * n) && decide (keySlots t = n) && (img.getD 1 0).toNat == n
                    if !ok || !scalarOk t (imageMaterial t img) then (EngResult.of stKeyInvalid, s)
                    else createKey x.desc.slot t (BitVec.ofNat 16 (ofLe (slice img 2 2))) (slice img 8 8) (imageMaterial t img) s } s

/-- KDEL (R390). -/
def execKdel (e : EngineId) (s : State) : Host.Outcome State Fault Refusal :=
  compute e { code := 0x0306, sysreg := true, keys := fun d => [(d.key1, (List.range 20), none)],
              body := fun x s =>
                match x.keys with
                | k :: _ => (EngResult.ok [], modKs (deleteKey k) s)
                | [] => (EngResult.of stKeyInvalid, s) } s

/-! ## The DRBG (R394-R397) -/

/-- DRBG_RESEED (R394): an engine's DRBG reseeds between requests, during the write-back stage, from 384 bits of entropy. -/
def execDrbgReseed (e : EngineId) (s : State) : Host.Outcome State Fault Refusal :=
  let g := s.engines[e]
  if !g.wb.isEmpty || g.run.any (fun st => decide (st.cmpEnd < s.now / 2)) then
    let (entropy, s) := drawBytes s 48
    .next (modEngine e (fun g => { g with drbg := drbgReseeded entropy g.drbg }) s)
  else .next s

/-- R395, R397: the start-up test begins again. -/
def restartDrbg (s : State) : State := { s with drbg := { s.drbg with state := 0, testUntil := s.now + nsToCc s 2000000 } }

/-- DRBGCTL_RESTART (R397): the write of 1 by base level. -/
def execDrbgctlRestart (s : State) : Host.Outcome State Fault Refusal := .next (restartDrbg s)

/-- R396: a failed test. -/
def failDrbg (rct apt : Bool) (s : State) : State :=
  pulse 343 { s with drbg := { s.drbg with state := 2, rct := s.drbg.rct || rct, apt := s.drbg.apt || apt,
                                           failcnt := satAdd s.drbg.failcnt 1 } }

/-- R422: the cycle from which the chain can start: 2 ms after EN and READY. -/
def armStart (s : State) : State :=
  if s.jn.en && !s.jn.chainOn && s.jn.startAt.isNone && s.drbg.state == 1 then
    modJn (fun j => { j with startAt := some (s.now + nsToCc s 2000000) }) s
  else s

/-- DRBG_STARTUP_TEST (R395, R396): 2 ms after its start the test completes on the samples that the source has given, and every DRBG is
instantiated where both tests pass. -/
def execDrbgStartupTest (first : Bool) (rest : List Bool) (s : State) : Host.Outcome State Fault Refusal :=
  if s.drbg.state ≠ 0 then .next s
  else
    let s := settle (max s.now s.drbg.testUntil) s
    let samples := first :: rest
    if rctFails samples || aptFails samples then .next (failDrbg (rctFails samples) (aptFails samples) s)
    else
      let s := instantiateAll s
      .next (armStart { s with drbg := { s.drbg with state := 1 } })

/-- CONTINUOUS_TEST_FAILURE (R395, R396): the continuous tests on samples of the entropy source, of which one fails or both do. -/
def execContinuousTestFailure (first : Bool) (rest : List Bool) (s : State) : Host.Outcome State Fault Refusal :=
  let samples := first :: rest
  .next (if rctFails samples || aptFails samples then failDrbg (rctFails samples) (aptFails samples) s else s)

end Sys2Proof.Machine
end

