-- ==== Sys2Proof/Machine/Identity.lean ====
section
/-! DEFINITION. The CRC-32 of the manual (R495), the identity block (R497) and the factory trim page (R495). -/
namespace Sys2Proof.Machine

/-- Eight steps of the reflected CRC-32. -/
def crcStep : Nat → BitVec 32 → BitVec 32
  | 0, c => c
  | n + 1, c => crcStep n ((c >>> 1) ^^^ (if c.getLsbD 0 then 0xEDB88320 else 0))

/-- The CRC-32 of bytes: initial value all ones, final complement (R495). -/
def crc32 (bs : List Byte) : BitVec 32 := ~~~(bs.foldl (fun c b => crcStep 8 (c ^^^ b.setWidth 32)) (BitVec.allOnes 32))

/-- A CRC-32 as stored. -/
def crcBytes (bs : List Byte) : List Byte := leBytes 4 (crc32 bs).toNat

/-- A byte of the trim page as it left the factory: reserved bytes are zero, the others free (R495; log entry 13). -/
def factoryTrimByte (o : Nat) : Byte :=
  if o < 2 ∨ (4 ≤ o ∧ o < 0x32) ∨ (0x34 ≤ o ∧ o < 0x36) ∨ (0x40 ≤ o ∧ o < 0xA0) then Config.trimByte o else 0

/-- The trim page as it left the factory, with its PCRC (R495). -/
def factoryTrim : List Byte :=
  let p := (List.range 0xFFC).map factoryTrimByte
  p ++ crcBytes p

/-- The identity public key X ‖ Y (R497). -/
def identityKey : List Byte := ecPublic p384 identityScalar

/-- The bytes of the certificate chain (R497; log entry 9). -/
def certLength : Nat := ((Config.identityByte 0x101).toNat * 256 + (Config.identityByte 0x100).toNat) % 3837

/-- A byte of the identity block (R497). -/
def identityAt (s : State) (o : Nat) : Byte :=
  let le (v i : Nat) : Byte := BitVec.ofNat 8 (v / 256 ^ i)
  if o < 2 then le 0x0E2B o
  else if o < 4 then le (if s.grade == .fd480S then 0x0480 else 0x0640) (o - 2)
  else if o = 4 then 0xB1
  else if o = 5 then (if s.grade == .fd640E then 1 else 0)
  else if o = 0xF then 0
  else if 0x14 ≤ o ∧ o < 0x18 then (factoryTrim.drop 0xFFC).getD (o - 0x14) 0
  else if 0x18 ≤ o ∧ o < 0x38 then (sha256Bytes identityKey).getD (o - 0x18) 0
  else if 0x38 ≤ o ∧ o < 0x40 then 0
  else if 0x40 ≤ o ∧ o < 0xA0 then identityKey.getD (o - 0x40) 0
  else if 0xD0 ≤ o ∧ o < 0x100 then s.pw.okh.getD (o - 0xD0) 0
  else if 0x100 ≤ o ∧ o < 0x104 then le certLength (o - 0x100)
  else if 0x104 + certLength ≤ o then 0
  else Config.identityByte o

/-- n bytes of the identity block. -/
def identityBytes (s : State) (o n : Nat) : List Byte := (List.range n).map fun i => identityAt s (o + i)

end Sys2Proof.Machine
end

