-- ==== Sys2Proof/Machine/Journal.lean ====
section
/-! DEFINITION. The Wale journal: committing a record (R408-R411, R531), hashing and chaining (R404-R407, R412), the ring
(R413-R416), checkpoints and head slots (R417-R421), the start of the chain, and zeroisation (R392, R393, R422, R423). -/
namespace Sys2Proof.Machine

/-! ## The ring (R413-R416) -/

/-- Bytes written into the ring from a count on; they may wrap past its end (R414). -/
def ringWrite (x : Nat) (bs : List Byte) (s : State) : State :=
  let n := s.jn.rsize.toNat
  let a := s.jn.rbase.toNat
  let o := x % n
  let first := bs.take (n - o)
  let rest := bs.drop (n - o)
  let put (a : Nat) (b : List Byte) (s : State) : State :=
    if b.isEmpty then s else markFrames (storeBytes (partialEcc a b.length s) a b) a b.length true
  put a rest (put (a + o) first s)

/-- R415: a unit entry takes its room, or waits for it with the CYCLE and TAI of its due cycle. -/
def admitUnit (i : JItem) (s : State) : State :=
  let j := s.jn
  if j.waiting.isEmpty && decide (j.reserved + i.size ≤ j.rsize.toNat + j.cons) then
    ringLevels (modJn (fun j => { j with reserved := j.reserved + i.size, unit := j.unit ++ [i] }) s)
  else modJn (fun j => { j with waiting := j.waiting ++ [i] }) s

/-- R415: waiting unit entries for which there is room now, oldest first. -/
def admitWaiting : Nat → State → State
  | 0, s => s
  | n + 1, s =>
    match s.jn.waiting with
    | [] => s
    | i :: r =>
      if s.jn.reserved + i.size ≤ s.jn.rsize.toNat + s.jn.cons then
        admitWaiting n (modJn (fun j => { j with waiting := r, reserved := j.reserved + i.size,
                                                 unit := j.unit ++ [{ i with due := max i.due (s.now / 2) }] }) s)
      else s

/-- JRCONS (R414): a store of the drainer's count. -/
def execJrcons (v : BitVec 64) (s : State) : Host.Outcome State Fault Refusal :=
  let n := v.toNat
  if n % 64 = 0 ∧ s.jn.cons ≤ n ∧ n ≤ s.jn.prod then
    let s := modJn (fun j => { j with cons := n }) s
    .next (ringLevels (admitWaiting s.jn.waiting.length s))
  else .next s

/-! ## Checkpoints falling due (R417, R421) -/

/-- R421: a checkpoint that is not made, or a head that is not written. -/
def deferCk (s : State) : State := pulse 322 (modJn (fun j => { j with defer := satAdd j.defer 1 }) s)

/-- R417: the trigger of a waiting checkpoint merged with another. -/
def mergeCk (trig : BitVec 8) (i : JItem) : JItem :=
  match i.kind with
  | .checkpoint t => { i with kind := .checkpoint (if trig < t then trig else t), forced := i.forced || trig == 2 }
  | _ => i

/-- A checkpoint falls due in the current cycle (R417, R421). -/
def dueCk (trig : BitVec 8) (s : State) : State :=
  let j := s.jn
  if !j.chainOn || j.fault then s
  else if s.pw.minh then deferCk s
  else if (j.unit ++ j.waiting).any fun i => i.kind.isCk then
    modJn (fun j => { j with unit := j.unit.map (mergeCk trig), waiting := j.waiting.map (mergeCk trig) }) s
  else
    let (tai, s) := taiRead s
    admitUnit { newItem s tai (.checkpoint trig) 32 with defer := j.defer, forced := trig == 2 } s

/-- JCTL_CKPT (R413, R417): the write of 1 to JCTL.CKPT by base level. -/
def execJctlCkpt (s : State) : Host.Outcome State Fault Refusal := .next (dueCk 3 s)

/-- The period of trigger 1 in cc (R417). -/
def ckPeriod (s : State) : Nat := nsToCc s 100000000

/-- CHECKPOINT_TIMER (R417, R421): trigger 1; under the inhibit it recurs on its own schedule. -/
def execCheckpointTimer (s : State) : Host.Outcome State Fault Refusal :=
  if s.jn.run && decide (0 < s.jn.sinceCk) then
    let s := settle (max s.now (s.jn.lastCk + ckPeriod s)) s
    let s := if s.pw.minh then modJn (fun j => { j with lastCk := s.now }) s else s
    .next (dueCk 1 s)
  else .next s

/-! ## Committing a record (R408-R411, R531) -/

/-- R408: the checks of JCOMMIT, in order. -/
def commitChecks (s : State) (k : Core) (ga gb : Reg) : Option Trap :=
  let a := k.reg ga
  let ea := (capAddr a.val).toNat
  let len := (k.reg gb).val.toNat % 4096
  let no (code : BitVec 8) : Option Trap := some (capTrap code ea ga.val)
  firstTrap [
    if !a.tag then no cTag else none,
    if isSealed a then no cSeal else none,
    if hasPerm a.val permLD && hasPerm a.val permJOURNAL then none else no cPerm,
    if len = 0 ∨ (inBounds a.val ea len && inGlobal ea len) = true then none else no cBounds,
    match keyRefusal s (capKey a.val) false ea len with
    | some p => some (capTrap cKey p ga.val)
    | none => none]

/-- JCOMMIT (R398, R408, R409): an act on a pair. The commits of one cycle are numbered in ascending core number (R410). -/
def execJcommit (c : CoreId) (cond : Cond) (gd ga gb : Reg) (s : State) : Host.Outcome State Fault Refusal :=
  issue c (capForm s c cond 0x0A gd ga gb 8) (fun t s =>
    let k := s.core c
    match commitChecks s k ga gb with
    | some q => .trap q 0 s
    | none =>
      if paired s c then .done 1 (holdAct c t gd (.jcommit (k.reg ga) (k.reg gb).val) s)
      else
        let (seq, s) := takeSeq c s
        .done 1 (schedule c t 2 (.jcommit none (k.reg ga) (k.reg gb).val (c, seq) [{ core := c, cycle := t, reg := gd, seq := seq }]) s)) s

/-- COMMIT_QUEUE_ENTRY (R410). -/
def execCommitQueueEntry (s : State) : Host.Outcome State Fault Refusal :=
  let s := settlePort s
  match s.jn.accepted with
  | [] => .next s
  | i :: _ =>
    let s := settle (max s.now (2 * i.due)) s
    .next (modJn (fun j => { j with accepted := j.accepted.drop 1, queue := j.queue ++ [i] }) s)

/-- The journal unit's place in the order of R261. -/
def whoJournal : Nat := 113

/-- PAYLOAD_FETCH (R411): the fetch of the oldest commit starts in F0; the read of block k of its payload is sent in F0 + 4k, under the KEY
of the commit, and is performed after the stores of the committing core. -/
def execPayloadFetch (s : State) : Host.Outcome State Fault Refusal :=
  let s := settlePort s
  match s.jn.queue, s.jn.fetch with
  | i :: _, none =>
    let b := blocksOf i.addr i.len
    let f0 := max i.due s.jn.fetchEnd
    let s := settle (max s.now (2 * f0)) s
    let s := modJn (fun j => { j with queue := j.queue.drop 1, fetch := some { item := i, start := f0, stop := f0 + 130 + 4 * b - 1 },
                                      fetchEnd := f0 + 130 + 4 * b }) s
    .next ((blockParts i.addr i.len).zipIdx.foldl (fun s ((x, m), k) =>
      sendBg { who := whoJournal, addr := x, sent := f0 + 4 * k, after := i.after, job := i.cnum, off := x - i.addr, what := .read m }
        (some i.key) false s) s)
  | _, _ => .next s

/-- The item of a fetch as its reads leave it: its payload, or zeros and FERR where a block was refused or held an uncorrectable error
(R404, R411). -/
def fetchedItem (i : JItem) (ds : List BgDone) : JItem :=
  if ds.any fun d => d.refused.isSome then { i with ferr := 1 }
  else if ds.any fun d => d.bad.isSome then { i with ferr := 2 }
  else { i with payload := gathered ds i.len }

/-- PAYLOAD_FETCH_END (R411). -/
def execPayloadFetchEnd (s : State) : Host.Outcome State Fault Refusal :=
  match s.jn.fetch with
  | none => .next s
  | some f =>
    let s := awaitBg whoJournal bgFuel (settle (max s.now (2 * f.stop)) s)
    let n := f.item.cnum
    let i := fetchedItem f.item (doneOf s whoJournal n)
    let s := dropDone whoJournal n s
    let s := modJn (fun j => { j with fetch := none, fdone := n, fetched := j.fetched ++ [{ i with due := f.stop }] }) s
    if i.ferr = 0 then .next s
    else .next (pulse 327 (modJn (fun j => { j with ferr := n, fecnt := satAdd j.fecnt 1 }) s))

/-! ## Head slots (R420) -/

/-- The number that bytes [lo, lo + n) of a slot hold. -/
def slotNum (b : List Byte) (lo n : Nat) : Nat := ofLe (slice b lo n)

/-- Whether the head part of a slot is valid (R420). -/
def slotValid (b : List Byte) : Bool :=
  b.take 4 == [0x57, 0x48, 0x53, 0x4C] && crcBytes (slice b 0 76) == slice b 76 4

/-- Whether the signature part of a slot is valid beside its head part (R420). -/
def sigValid (b : List Byte) : Bool := crcBytes (slice b 12 8 ++ slice b 80 96) == slice b 176 4

/-- The valid slot with the highest WCNT (R420). -/
def latestSlot (s : State) : Option (Nat × List Byte) :=
  (s.headSlots.filter fun p => slotValid p.2).foldl (fun best p =>
    match best with
    | some q => if slotNum q.2 4 8 < slotNum p.2 4 8 then some p else best
    | none => some p) none

/-- The next of the slots from `start` on that is not skipped, after `ahead` more of them (R420). -/
def slotFrom (skipped : List Nat) : Nat → Nat → Nat → Option Nat
  | 0, _, _ => none
  | fuel + 1, start, ahead =>
    let i := start % 4096
    if skipped.contains i then slotFrom skipped fuel (i + 1) ahead
    else match ahead with
      | 0 => some i
      | a + 1 => slotFrom skipped fuel (i + 1) a

/-- The slot that the next head part takes, behind `ahead` of them (R420). -/
def nextSlot (s : State) (ahead : Nat) : Option Nat :=
  let at_ := match s.jn.partWrite with
    | some w => if w.job.kind = .sig then (latestSlot s).map (·.1) else some w.slot
    | none => (latestSlot s).map (·.1)
  slotFrom s.jn.skipped 8192 (match at_ with | some n => n + 1 | none => 0) ahead

/-- A slot replaced. -/
def putSlot (n : Nat) (b : List Byte) (s : State) : State :=
  { s with headSlots := (n, b) :: s.headSlots.filter fun p => p.1 ≠ n }

/-- The contents of a slot. -/
def slotBytes (s : State) (n : Nat) : List Byte :=
  match s.headSlots.find? fun p => p.1 == n with
  | some p => padTo 256 p.2
  | none => List.replicate 256 0

/-- The head part of a job with a write count (R420). -/
def headPart (j : PartJob) (wcnt : Nat) : List Byte :=
  let b := [0x57, 0x48, 0x53, 0x4C] ++ leBytes 8 wcnt ++ leBytes 8 j.seqNo.toNat ++ padTo 32 j.chain ++ leBytes 12 j.tai.toNat ++
    leBytes 8 j.cycle.toNat ++ leBytes 2 j.defer.toNat ++ [if j.kind = .mark then 1 else 0, 0]
  b ++ crcBytes b

/-- The signature part of a job (R420). -/
def sigPart (j : PartJob) : List Byte := padTo 96 j.sig ++ crcBytes (leBytes 8 j.seqNo.toNat ++ padTo 96 j.sig)

/-- The slot that holds the head part of a CHECKPOINT (R420). -/
def slotOf (s : State) (seq : BitVec 64) : Option Nat :=
  ((s.headSlots.filter fun p => slotValid p.2 && slotNum p.2 12 8 == seq.toNat && (p.2.getD 74 0 == 0)).foldl (fun best p =>
    match best with
    | some (q : Nat × List Byte) => if slotNum q.2 4 8 < slotNum p.2 4 8 then some p else best
    | none => some p) none).map (·.1)

/-- A part job put in line: a head ahead of every signature part, and that of a forced checkpoint ahead of all (R421). -/
def addPart (p : PartJob) (forced : Bool) (s : State) : State :=
  modJn (fun j =>
    let sigs := j.parts.filter fun q => q.kind = .sig
    let heads := j.parts.filter fun q => q.kind ≠ .sig
    { j with parts := if p.kind = .sig then j.parts ++ [p] else if forced then p :: heads ++ sigs else heads ++ [p] ++ sigs }) s

/-- R421: the head part of a chained CHECKPOINT falls due; under the inhibit it is not made. -/
def dueHead (p : PartJob) (forced : Bool) (s : State) : State := if s.pw.minh then deferCk s else addPart p forced s

/-- The cycles of one MRAM write: a part, or a row of the trim page (R420, R496). -/
def mramWrite (s : State) : Nat := nsToCc s 5000

/-- A part write starts: at once, or at the end of the row of a trim rewrite that is being written, whose later rows it puts off (R420,
R421). -/
def startPart (w : PartWrite) (s : State) : State :=
  let n := mramWrite s
  let start := if s.pw.trimBusy then s.pw.trimStart + n * cdiv (s.now - s.pw.trimStart) n else s.now
  let s := if s.pw.trimBusy then { s with pw := { s.pw with trimStart := s.pw.trimStart + n } } else s
  modJn (fun j => { j with partWrite := some { w with stop := start + n } }) s

/-- HEAD_PART_WRITE (R420, R422): the next head part or marker is written, where no part is being written and none is
inhibited; a job without a usable slot is dropped. -/
def execHeadPartWrite (s : State) : Host.Outcome State Fault Refusal :=
  match s.jn.parts with
  | p :: r =>
    if s.jn.partWrite.isSome || s.pw.minh || p.kind = .sig then .next s
    else match nextSlot s 0 with
      | none => .next (modJn (fun j => { j with parts := r }) s)
      | some n =>
        let w := match latestSlot s with | some q => slotNum q.2 4 8 + 1 | none => 1
        .next (startPart { job := p, slot := n, bytes := headPart p w, stop := 0 } (modJn (fun j => { j with parts := r }) s))
  | [] => .next s

/-- SIGNATURE_PART_WRITE (R420): the next signature part is written into the slot of its head part. -/
def execSignaturePartWrite (s : State) : Host.Outcome State Fault Refusal :=
  match s.jn.parts with
  | p :: r =>
    if s.jn.partWrite.isSome || s.pw.minh || p.kind ≠ .sig then .next s
    else match slotOf s p.seqNo with
      | none => .next (modJn (fun j => { j with parts := r }) s)
      | some n =>
        .next (startPart { job := p, slot := n, bytes := sigPart p, stop := 0 } (modJn (fun j => { j with parts := r }) s))
  | [] => .next s

/-- R420: a part whose read-back differs: event 326, BAD, and its slot skipped. -/
def partFailed (w : PartWrite) (s : State) : State :=
  pulse 326 (modJn (fun j => { j with partWrite := none, bad := satAdd j.bad 1, skipped := w.slot :: j.skipped }) s)

/-- HEAD_PART_WRITE_END (R420): the part is read back. -/
def execHeadPartWriteEnd (ok : Bool) (s : State) : Host.Outcome State Fault Refusal :=
  match s.jn.partWrite with
  | none => .next s
  | some w =>
    if w.job.kind = .sig then .next s
    else
      let s := settle (max s.now w.stop) s
      if ok then
        let s := putSlot w.slot (overlay (slotBytes s w.slot) 0 w.bytes) (modJn (fun j => { j with partWrite := none }) s)
        if w.job.kind = .head then .next (pulse 321 (modJn (fun j => { j with defer := 0 }) s)) else .next s
      else
        let s := partFailed w { s with headSlots := s.headSlots.filter fun p => p.1 ≠ w.slot }
        .next (modJn (fun j => { j with parts := w.job :: j.parts }) s)

/-- SIGNATURE_PART_WRITE_END (R420): on a failure the head part is written again into the following slot, and then the
signature part there. -/
def execSignaturePartWriteEnd (ok : Bool) (s : State) : Host.Outcome State Fault Refusal :=
  match s.jn.partWrite with
  | none => .next s
  | some w =>
    if w.job.kind ≠ .sig then .next s
    else
      let s := settle (max s.now w.stop) s
      if ok then
        .next (putSlot w.slot (overlay (slotBytes s w.slot) 80 w.bytes) (modJn (fun j => { j with partWrite := none }) s))
      else
        .next (modJn (fun j => { j with parts := { w.job with kind := .head } :: w.job :: j.parts }) (partFailed w s))

/-! ## Hashing and chaining (R406, R412) -/

/-- The entry that is hashed next and the fabric cycle of its start: a unit entry ahead of every commit (R412), each held
by what R422 puts before it. -/
def hashNext (j : Journal) : Option (JItem × Nat) :=
  let start (i : JItem) : Nat := max i.due j.hashEnd + 1
  let unit := match j.unit with | i :: _ => if i.wait ≤ j.chained then some i else none | [] => none
  let com := match j.fetched with
    | i :: _ => (match j.gate with | some g => if i.cnum ≤ g then some i else none | none => some i)
    | [] => none
  match unit, com with
  | some u, some c => if start u ≤ start c then some (u, start u) else some (c, start c)
  | some u, none => some (u, start u)
  | none, some c => some (c, start c)
  | none, none => none

/-- The length of a hash in fabric cycles (R412). -/
def hashCount (len : Nat) : Nat := 8 + 32 * cdiv (105 + len) 64

/-- The payload of an entry as it is hashed (R411, R418, R423). -/
def JItem.payloadAt (s : State) (i : JItem) : List Byte :=
  match i.kind with
  | .record _ => if i.ferr = 0 then i.payload else List.replicate i.len 0
  | .checkpoint trig =>
    let heads := if i.forced then 0 else (s.jn.parts.filter fun p => p.kind ≠ .sig).length
    leBytes 8 s.jn.prevCk.toNat ++ leBytes 4 s.jn.sinceCk ++ leBytes 2 i.defer.toNat ++
      leBytes 2 (match nextSlot s heads with | some n => n | none => 0xFFFF) ++ [trig] ++ List.replicate 15 0
  | _ => i.payload

/-- The SEQ of an entry and the chain value before it (R404, R406). -/
def seqAndPrev (j : Journal) (k : JKind) : BitVec 64 × List Byte :=
  match k with
  | .genesis _ => (0, List.replicate 32 0)
  | .resume _ _ _ seq chain => (seq + 1, chain)
  | _ => (j.hseq + 1, j.head)

/-- Unit entries with the checkpoint that waits put first: that of trigger 4 follows GENESIS directly (R417, R422). -/
def ckFirst (l : List JItem) : List JItem := (l.filter fun i => i.kind.isCk) ++ l.filter fun i => !i.kind.isCk

/-- What the hash of the first entry of a chain brings: the counts of the chain start again, and a checkpoint with
trigger 4 falls due (R417, R418, R422). -/
def startOfChain (k : JKind) (s : State) : State :=
  match k with
  | .genesis reason =>
    let s := modJn (fun j => { j with prevCk := BitVec.allOnes 64, sinceCk := 0, gate := none }) s
    if reason = 1 then modJn (fun j => { j with unit := ckFirst j.unit }) (dueCk 4 s) else s
  | .resume _ _ _ seq _ => modJn (fun j => { j with prevCk := seq, sinceCk := 0 }) s
  | _ => s

/-- ENTRY_HASH (R412): the next entry is hashed; `disagree` tells that the two cores disagree on it. An entry on which
they disagreed once is hashed again. -/
def execEntryHash (disagree : Bool) (s : State) : Host.Outcome State Fault Refusal :=
  match s.jn.hash with
  | some h =>
    if h.disagree && !h.retried then
      let s := settle (max s.now (2 * (h.stop + 1))) s
      let stop := h.stop + hashCount h.item.len
      .next (modJn (fun j => { j with hash := some { h with retried := true, disagree := disagree, stop := stop }, hashEnd := stop }) s)
    else .next s
  | none =>
    match hashNext s.jn with
    | none => .next s
    | some (i, f) =>
      if s.jn.fault then .next s
      else
        let s := settle (max s.now (2 * f)) s
        let s := modJn (fun j => match i.kind with
          | .record _ => { j with fetched := j.fetched.drop 1 }
          | _ => { j with unit := j.unit.drop 1 }) s
        let s := startOfChain i.kind s
        let (seq, prev) := seqAndPrev s.jn i.kind
        let stop := f + hashCount i.len - 1
        .next (modJn (fun j =>
          { j with hash := some { item := i, seqNo := seq, prev := prev, body := i.header seq ++ i.payloadAt s, retried := false,
                                  disagree := disagree, stop := stop },
                   hashEnd := stop }) s)

/-- What follows the chaining of an entry, by its kind (R412, R417, R419, R422). -/
def afterChaining (h : JHash) (chain : List Byte) (at_ : Nat) (s : State) : State :=
  match h.item.kind with
  | .checkpoint _ =>
    let job : PartJob :=
      { kind := .head, seqNo := h.seqNo, chain := chain, tai := h.item.tai, cycle := h.item.cycle, defer := h.item.defer, sig := [] }
    let s := modJn (fun j =>
      { j with ckseq := h.seqNo, prevCk := h.seqNo, sinceCk := 0, lastCk := s.now,
               checks := j.checks ++ [{ job := job, body := h.body ++ chain, sigAt := at_ + 96 + h.item.len,
                                        digestDue := h.stop + 160, submitted := false, sig := none }] }) s
    let s := dueHead job h.item.forced s
    if h.item.mark then addPart { job with kind := .mark } false s else s
  | k =>
    let s := modJn (fun j => { j with sinceCk := j.sinceCk + 1,
                                      chained := match k with | .record _ => h.item.cnum | _ => j.chained,
                                      run := true }) s
    if s.jn.sinceCk % 1023 = 0 then dueCk 0 s else s

/-- ENTRY_CHAINING (R412): the hash ends. A second disagreement stops the chain. -/
def execEntryChaining (s : State) : Host.Outcome State Fault Refusal :=
  match s.jn.hash with
  | none => .next s
  | some h =>
    if h.disagree && !h.retried then .next s
    else
      let s := settle (max s.now (2 * h.stop)) s
      if h.disagree then
        .next (machineCheck (mcCore s) s.now 5 0 (modJn (fun j => { j with fault := true, hash := none, run := false }) s))
      else
        let chain := sha256Bytes (h.prev ++ h.body)
        let size := h.item.size
        let at_ := match s.jn.outs.getLast? with | some o => o.at_ + o.size | none => s.jn.prod
        let s := ringWrite at_ (padTo size (h.body ++ chain)) s
        let s := modJn (fun j =>
          { j with hash := none, hseq := h.seqNo, head := chain,
                   outs := j.outs ++ [{ at_ := at_, size := size, ready := h.stop + 300 + 4 * (size / 64), seqNo := h.seqNo,
                                        unsigned := h.item.kind.isCk }] }) s
        .next (afterChaining h chain at_ s)

/-- ENTRY_RELEASE (R416): PROD passes the oldest entry, in one of the two cycles that R8 allows, unless it is a CHECKPOINT
whose signature field is not written. -/
def execEntryRelease (s : State) : Host.Outcome State Fault Refusal :=
  match s.jn.outs with
  | [] => .next s
  | o :: r =>
    if o.unsigned then .next s
    else
      let late := Config.lateCrossing s.free
      let s := settle (max s.now (2 * (o.ready + if late then 1 else 0))) { s with free := s.free + 1 }
      .next (ringLevels (modJn (fun j => { j with outs := r, prod := j.prod + o.size }) s))

/-! ## Signatures (R419) -/

/-- CHECKPOINT_DIGEST (R419): the digest is formed and IDSIGN submitted to engine 32. -/
def execCheckpointDigest (s : State) : Host.Outcome State Fault Refusal :=
  match s.jn.checks.find? fun k => !k.submitted with
  | none => .next s
  | some k =>
    let s := settle (max s.now (2 * k.digestDue)) s
    let s := modJn (fun j => { j with checks := j.checks.map fun x => if x.job.seqNo = k.job.seqNo then { x with submitted := true } else x }) s
    .next (modEngine 32 (fun g => { g with accepted := g.accepted ++ [
      { ga := TWord.null, gb := TWord.null, source := .journal k.job.seqNo (sha384Bytes k.body), entry := fcFrom (s.now + 3),
        after := none, marked := false }] }) s)

/-- CHECKPOINT_SIGNATURE_WRITE (R419): the result of IDSIGN is written into the entry, and its signature part falls due
unless MRAM writes are inhibited (R421). -/
def execCheckpointSignatureWrite (s : State) : Host.Outcome State Fault Refusal :=
  match s.jn.checks with
  | k :: r =>
    match k.sig with
    | none => .next s
    | some sig =>
      let s := ringWrite k.sigAt (padTo 96 sig) s
      let s := modJn (fun j =>
        { j with checks := r, sgseq := k.job.seqNo,
                 outs := j.outs.map fun o => if o.seqNo = k.job.seqNo then { o with unsigned := false } else o }) s
      if sig.isEmpty || s.pw.minh then .next s else .next (addPart { k.job with kind := .sig, sig := sig } false s)
  | [] => .next s

/-! ## MRAM warning and inhibit (R421, R483) -/

/-- The MRAM free again in the current cycle, as a part write is abandoned: a rewrite of the trim page that it put off goes on. -/
def freeMram (w : PartWrite) (s : State) : State :=
  let n := mramWrite s
  let p := s.pw
  let start := if s.now + n < w.stop then p.trimStart - n else if s.now < w.stop then s.now - (w.stop - p.trimStart) else p.trimStart
  { s with pw := { p with trimStart := if p.trimBusy then start else p.trimStart } }

/-- R421: event 340 rises: a signature part in progress is abandoned, and a checkpoint with trigger 2 falls due. -/
def journalWarning (s : State) : State :=
  let s := match s.jn.partWrite with
    | some w => if w.job.kind = .sig then freeMram w (modJn (fun j => { j with partWrite := none }) s) else s
    | none => s
  dueCk 2 s

/-- R421: MRAM writes are inhibited: the write in progress is abandoned, and heads that wait are not made; a marker is
held (R393, R422). -/
def journalInhibit (s : State) : State :=
  let lost := (match s.jn.partWrite with | some w => [w.job] | none => []) ++ s.jn.parts
  let s := match s.jn.partWrite with
    | some w => if w.job.kind = .sig then s else { s with headSlots := s.headSlots.filter fun p => p.1 ≠ w.slot }
    | none => s
  let s := modJn (fun j => { j with partWrite := none, parts := lost.filter fun p => p.kind = .mark }) s
  (lost.filter fun p => p.kind = .head).foldl (fun s _ => deferCk s) s

/-- R417, R421: the inhibit ends; trigger 5 falls due in the first fabric cycle after it. -/
def journalInhibitEnd (s : State) : State :=
  if s.jn.defer = 0 then s else dueCk 5 (settle (2 * (s.now / 2 + 1)) s)

/-! ## Starting the chain (R422) -/

/-- JCTL_EN (R413, R422, R492): the write of 1 to JCTL.EN by base level. -/
def execJctlEn (s : State) : Host.Outcome State Fault Refusal :=
  if s.jn.en || !ringValid s.jn || s.pw.bootSel == 2 then .next s
  else .next (ringLevels (armStart (modJn (fun j => { j with en := true }) s)))

/-- A GENESIS with its payload (R423), under a reading of TAI. -/
def genesisItem (s : State) (tai : BitVec 96) (reason : BitVec 8) : JItem :=
  let i := newItem s tai (.genesis reason) 176
  { i with payload := identityBytes s 0 64 ++ identityKey ++ leBytes 12 i.tai.toNat ++ [reason, 0, 0, 0] }

/-- CHAIN_START (R422): the head slots have been read, and the first entry falls due,
with the checkpoint of trigger 4 that follows it (log entry 91). -/
def execChainStart (s : State) : Host.Outcome State Fault Refusal :=
  let s := armStart s
  match s.jn.startAt with
  | none => .next s
  | some t =>
    let s := settle (max s.now t) s
    let (tai, s) := taiRead (modJn (fun j => { j with startAt := none, chainOn := true }) s)
    match latestSlot s with
    | none => .next (dueCk 4 (admitUnit (genesisItem s tai 0) s))
    | some (n, b) =>
      if b.getD 74 0 = 1 then .next (dueCk 4 (admitUnit (genesisItem s tai 2) s))
      else
        let sv := sigValid b
        let kind : JKind := .resume n (BitVec.ofNat 64 (slotNum b 4 8)) sv (BitVec.ofNat 64 (slotNum b 12 8)) (slice b 20 32)
        .next (dueCk 4 (admitUnit { newItem s tai kind 16 with
          payload := leBytes 2 n ++ [if sv then 1 else 0] ++ List.replicate 5 0 ++ slice b 4 8 } s))

/-- A MISMATCH entry falls due in cycle m (R403, R423). -/
def dueMismatch (m : Nat) (payload : List Byte) (s : State) : State :=
  if s.jn.chainOn && !s.jn.fault then
    let tai := (taiRead { s with now := m }).1
    let s := (taiRead s).2
    admitUnit { newItem { s with now := m } tai (.mismatch payload) 80 with payload := payload } s
  else s

/-! ## Zeroisation (R392, R393, R422) -/

/-- R422: what zeroisation does to the journal: the commits accepted before, a checkpoint with trigger 6, the marker, and
GENESIS with reason 1; the marker alone where no chain runs (log entry 22). -/
def journalZeroise (s : State) : State :=
  let (tai, s) := taiRead s
  let mark : PartJob :=
    { kind := .mark, seqNo := s.jn.hseq, chain := s.jn.head, tai := tai, cycle := BitVec.ofNat 64 s.now, defer := s.jn.defer, sig := [] }
  if !s.jn.chainOn || s.jn.fault then addPart mark false s
  else
    let cut := s.jn.cnum
    let s := modJn (fun j => { j with gate := some cut }) (dueCk 6 s)
    let hold (i : JItem) : JItem := if i.kind.isCk then { i with wait := max i.wait cut, mark := true } else i
    let s := if (s.jn.unit ++ s.jn.waiting).any fun i => i.kind.isCk then
        modJn (fun j => { j with unit := j.unit.map hold, waiting := j.waiting.map hold }) s
      else addPart mark false s
    admitUnit { genesisItem s tai 1 with wait := cut } s

/-- R392: a request marked, if zeroisation takes it. -/
def markReq (r : EngReq) : EngReq := { r with marked := true }

/-- R392: every request in a queue, as of fabric cycle f, and in fetch is marked, and those whose compute has started that use a key or the
DMK. -/
def markEngine (f : Nat) (g : Engine) : Engine :=
  let used (st : EngStage) : EngStage := if usesKeys st.desc then { st with req := markReq st.req } else st
  let fetched (st : EngStage) : EngStage :=
    if st.known && decide (st.cmpStart ≤ f) then used st else { st with req := markReq st.req }
  { g with accepted := g.accepted.map fun r => if r.entry ≤ f then markReq r else r,
           queue := g.queue.map markReq, jqueue := g.jqueue.map markReq,
           fetch := g.fetch.map fetched, run := g.run.map used }

/-- R392, R393: zeroisation starts in the current fabric cycle; the overwriting of the key store follows it. -/
def startZeroise (s : State) : State :=
  let s := { s with engines := s.engines.map (markEngine (s.now / 2)) }
  let s := modKs (fun k =>
    { k with sweep := some (s.now / 2, 0),
             zpend := s.pw.minh, dmk := if s.pw.minh then k.dmk else none,
             dmkValid := if s.pw.minh then k.dmkValid else false }) s
  journalZeroise s

/-- ZEROISATION (R392). -/
def execZeroisation (s : State) : Host.Outcome State Fault Refusal := .next (startZeroise (settle (evenFrom s.now) s))

/-- KSCTL_ZERO (R392, R397): the write of 1 to KSCTL.ZERO by base level. -/
def execKsctlZero (s : State) : Host.Outcome State Fault Refusal := .next (startZeroise (settle (evenFrom s.now) s))

/-- R393: a held erase of the DMK is performed once the inhibit has ended. -/
def eraseDmk (s : State) : State :=
  if s.ks.zpend && !s.pw.minh then modKs (fun k => { k with zpend := false, dmk := none, dmkValid := false }) s else s

/-- DMK_ERASE (R393). -/
def execDmkErase (s : State) : Host.Outcome State Fault Refusal := .next (eraseDmk s)

end Sys2Proof.Machine
end

