-- ==== Sys2Proof/Machine/Movers.lean ====
section
/-! DEFINITION. The mover channels of the Skein port: submission (R449, R453), the descriptor and its checks (R452, R454,
R455), bursts with their tags and keys (R456), completion (R457-R459), and channel reset (R451); and what the stacks of
attached memory report by themselves (R467, R468). -/
namespace Sys2Proof.Machine

/-- MSUB (R449, R453): an act on a pair. The submissions of one cycle are taken in ascending core number. -/
def execMsub (c : CoreId) (cond : Cond) (gd ga : Reg) (s : State) : Host.Outcome State Fault Refusal :=
  issue c (capForm s c cond 0x25 gd ga 0 0) (fun t s =>
    let k := s.core c
    let v := k.reg ga
    let ch := (k.reg gd).val.toNat % 64
    match descFault v 0 with
    | some code =>
      let ea := (capAddr v.val).toNat
      .trap (if code = cAlign then { code := cAlign, xaddr := BitVec.ofNat 52 ea, xinfo := 0 } else capTrap code ea ga.val) 0 s
    | none =>
      if paired s c then .done 1 (holdAct c t gd (.mover (BitVec.ofNat 6 ch) v [] k.atBase) s)
      else
        let (seq, s) := takeSeq c s
        .done 1 (schedule c t 2 (.msub ch v k.atBase (c, seq) [{ core := c, cycle := t, reg := gd, seq := seq }]) s)) s

/-! ## The descriptor (R454) -/

/-- The descriptor that a channel takes next: the chained one, or the next queue entry (R454). -/
def pickDescriptor (x : Channel) : Option (MovReq × Nat × Channel) :=
  match x.chain, x.queue with
  | some (r, off), _ => some (r, off, { x with chain := none })
  | none, r :: q => some (r, 0, { x with queue := q })
  | none, [] => none

/-- MOVER_DESCRIPTOR_START (R454): the chained descriptor, or the next queue entry, starts, and its read is sent, behind the stores of the
core that submitted it. -/
def execMoverDescriptorStart (ch : ChannelId) (s : State) : Host.Outcome State Fault Refusal :=
  let s := settlePort s
  match channelStart s.mov.ch[ch], pickDescriptor s.mov.ch[ch] with
  | some f, some _ =>
    let s := settle (max s.now (2 * f)) s
    match pickDescriptor s.mov.ch[ch] with
    | none => .next s
    | some (r, off, x) =>
      let s := modCh ch (fun _ => { x with run := some (unreadDescriptor r off f) }) s
      .next (sendBg { who := ch.val, addr := (capAddr r.ga.val).toNat + off, sent := f, after := r.after, job := 0, off := 0,
                      what := .read 64 } none false s)
  | _, _ => .next s

/-! ## Bursts (R456) -/

/-- The state once the descriptor in progress on a channel has been read and no burst of it is under way. -/
def moverReady (ch : ChannelId) (s : State) : State :=
  match s.mov.ch[ch].run with
  | none => s
  | some m =>
    let s := settle (max s.now (2 * (m.start + 1))) s
    if !m.known || m.cur.isSome then awaitBg ch.val bgFuel s else s

/-- What the key rule gives a burst of n bytes on one side: refused, or a key byte that cannot be read (R269, R285, R456, R468). -/
def sideCheck (kind : Nat) (v : TWord) (store : Bool) (a n : Nat) (s : State) : Option (BitVec 16) × State :=
  let key := capKey v.val
  if kind = 1 then
    match keyTableBad s a n with
    | some w => (some mvEcc, stackError w s)
    | none => ((sideKey s kind v store a n).map fun _ => mvKey, s)
  else if kind = 0 then
    match keyByteBad s 48 key a n with
    | some p => (some mvEcc, reportedEcc p s)
    | none => ((sideKey s kind v store a n).map fun _ => mvKey, softKeys 48 key a n s)
  else (none, s)

/-- The read of a burst from the global scratchpad or a window: one request for each block, sent in the next fabric cycle (R261, R456). -/
def readBurst (ch : ChannelId) (b : MovBurst) (s : State) : State :=
  let parts := blockParts b.src b.len
  let s := modRun ch (fun r => { r with cur := some { b with parts := parts.length, writing := false } }) s
  parts.foldl (fun s (x, n) =>
    sendBg { who := ch.val, addr := x, sent := fcFrom s.now, after := none, job := 1, off := x - b.src, what := .read n } none false s) s

/-- The read of a burst from attached memory, in the attached-memory domain: AC is set also where it meets an error (R286, R456, R467). -/
def attachedBurst (ch : ChannelId) (m : MovRun) (b : MovBurst) (s : State) : State :=
  let s := markFrames s b.src b.len false
  match attachedBad s false b.src b.len with
  | some w => stopMover ch mvEcc (stackError w s)
  | none =>
    let s := softRead b.src b.len s
    moverPut ch m b (s.bytes b.src b.len) (taggedWords s b.src b.len) (s.now / 2) s

/-- The read of a burst from host memory: a request with the channel's FUNC, and then the host's answer, the bytes of the whole request or
an error (R456, R457; log entry 105). -/
def hostBurst (ch : ChannelId) (m : MovRun) (b : MovBurst) (reply : HostReply) (s : State) : State :=
  let s := if m.asked then s
    else modRun ch (fun r => { r with asked := true }) (hostSend (.read s.mov.ch[ch].func.toNat b.src b.len) s)
  let answered (s : State) : State := modRun ch (fun r => { r with asked := false }) s
  match reply with
  | .data bs => if bs.length = b.len then moverPut ch m b bs [] (s.now / 2) (answered s) else s
  | .error => stopMover ch mvHost (answered s)
  | _ => s

/-- MOVER_BURST (R456): the next burst, once the one before it has ended, after the key rule on both sides. -/
def execMoverBurst (ch : ChannelId) (reply : HostReply) (s : State) : Host.Outcome State Fault Refusal :=
  let s := moverReady ch s
  match s.mov.ch[ch].run with
  | none => .next s
  | some m =>
    if !m.known || m.cur.isSome || m.status != mvOk || decide (m.len ≤ m.moved) then .next s
    else
      let s := settle (evenFrom s.now) s
      let n := burstBytes m
      let b : MovBurst :=
        { src := sideAddr m.srck m.src m.haddr m.moved, dst := sideAddr m.dstk m.dst m.haddr m.moved, len := n, parts := 0, writing := false }
      match sideCheck m.srck m.src false b.src n s with
      | (some st, s) => .next (stopMover ch st s)
      | (none, s) =>
        match sideCheck m.dstk m.dst true b.dst n s with
        | (some st, s) => .next (stopMover ch st s)
        | (none, s) =>
          if m.srck = 2 then .next (hostBurst ch m b reply s)
          else if m.srck = 1 then .next (attachedBurst ch m b s)
          else .next (readBurst ch b s)

/-! ## Completion (R457-R459) -/

/-- The fabric cycles from start to completion of the compute-side steps (R459). -/
def moverCount (m : MovRun) : Nat := 234 + 4 * blocksOf (sideAddr m.srck m.src m.haddr 0) m.len

/-- STATUS and MOVED of the descriptor at an offset of a submission, in the phase B of the current fabric cycle (R253, R457). -/
def writeStatus (r : MovReq) (off moved : Nat) (st : BitVec 16) (s : State) : State :=
  let a := (capAddr r.ga.val).toNat + off + 0x38
  let s := settle (s.now / 2 * 2 + 1) s
  let s := performBlock a (statusImage moved st) s
  match bgPort a with
  | some p => usePhase (s.now / 2) p s
  | none => s

/-- MOVER_COMPLETION (R454, R457-R459): a descriptor with every byte moved, or ended by its status, completes, with its event; a NEXT that
passes the checks of R453 is run before the next queue entry, and one that does not gives BAD_DESC. -/
def execMoverCompletion (ch : ChannelId) (s : State) : Host.Outcome State Fault Refusal :=
  let s := moverReady ch s
  match s.mov.ch[ch].run with
  | none => .next s
  | some m =>
    if !m.known || m.cur.isSome || (m.status == mvOk && decide (m.moved < m.len)) then .next s
    else
      let far := m.srck = 1 ∨ m.srck = 2 ∨ m.dstk = 1 ∨ m.dstk = 2
      let late := Config.lateCrossing s.free
      let s := if far then { s with free := s.free + 1 } else s
      let stop := m.start + moverCount m + (if far ∧ late then 1 else 0)
      let s := settle (max (evenFrom s.now) (2 * stop)) s
      let chains := m.next ≠ 0 ∧ m.status ≠ mvReset
      let bad := chains ∧ (descFault m.req.ga m.next).isSome
      let st := if bad then mvBadDesc else m.status
      let s := if m.ev || st != mvOk then pulse (224 + ch.val) s else s
      let s := modCh ch (fun x => { x with run := none, free := s.now / 2 + 1,
                                           chain := if chains ∧ ¬bad then some (m.req, m.next) else none }) s
      .next (countDone ch st (writeStatus m.req m.off m.moved st s))

/-! ## Channel reset (R451) -/

/-- Whether the descriptor at an offset of a submission names host memory. -/
def namesHost (s : State) (r : MovReq) (off : Nat) : Bool :=
  let m := parseDescriptor r off 0 (s.bytes ((capAddr r.ga.val).toNat + off) 64) []
  m.srck == 2 || m.dstk == 2

/-- A descriptor that has not started completes with RESET: STATUS and MOVED are sent in the current fabric cycle, and the event comes as
they are performed (R451, R458). -/
def resetDescriptor (ch : ChannelId) (r : MovReq) (off : Nat) (s : State) : State :=
  sendBg { who := ch.val, addr := (capAddr r.ga.val).toNat + off + 0x38, sent := fcFrom s.now, after := none, job := 3, off := 0,
           what := .write (statusImage 0 mvReset) [] } none true s

/-- R451: the descriptors that have not started complete with RESET, and the one in progress issues no further burst and completes with
RESET; with `host`, only those that name host memory. -/
def resetChannel (ch : ChannelId) (host : Bool) (s : State) : State :=
  let x := s.mov.ch[ch]
  let hit (r : MovReq) (off : Nat) : Bool := !host || namesHost s r off
  let waiting := ((match x.chain with | some (r, off) => [(r, off)] | none => []) ++ x.queue.map fun r => (r, 0)).filter fun p => hit p.1 p.2
  let s := modCh ch (fun x =>
    { x with queue := x.queue.filter fun r => !hit r 0,
             chain := match x.chain with | some (r, off) => if hit r off then none else some (r, off) | none => none,
             run := x.run.map fun m =>
               if !host || (if m.known then m.srck == 2 || m.dstk == 2 else namesHost s m.req m.off) then { m with status := mvReset } else m }) s
  waiting.foldl (fun s p => resetDescriptor ch p.1 p.2 s) s

/-- MCHCFG_EN_CLEAR (R451): the store that changes EN from 1 to 0. -/
def execMchcfgEnClear (ch : ChannelId) (s : State) : Host.Outcome State Fault Refusal :=
  let s := settlePort s
  if s.mov.ch[ch].en then .next (resetChannel ch false (modCh ch (fun x => { x with en := false }) s)) else .next s

/-- R451: the channels whose FUNC satisfies a test lose their descriptors that name host memory. -/
def resetHostSide (p : Nat → Bool) (s : State) : State :=
  (List.finRange 64).foldl (fun s ch => if p s.mov.ch[ch].func.toNat then resetChannel ch true s else s) s

/-! ## The stacks by themselves (R467, R468) -/

/-- HBM_REFRESH_RATE_CHANGE (R468): the refresh interval of a stack halves or returns; event 355 + 8s. -/
def execHbmRefreshRateChange (k : StackId) (hot : Bool) (s : State) : Host.Outcome State Fault Refusal :=
  if s.mov.hbmStacks[k].hot = hot then .next s else .next (pulse (355 + 8 * k.val) (modStack k (fun x => { x with hot := hot }) s))

/-- HBM_PATROL_PASS_COMPLETE (R468): event 354 + 8s at the end of a pass, while patrol scrub runs. -/
def execHbmPatrolPassComplete (k : StackId) (s : State) : Host.Outcome State Fault Refusal :=
  if s.mov.hbmPass = 0 then .next s else .next (pulse (354 + 8 * k.val) s)

/-- HBM_PHY_ERROR (R468): a PHY error that training cannot correct; event 356 + 8s. -/
def execHbmPhyError (k : StackId) (s : State) : Host.Outcome State Fault Refusal :=
  let s := { s with pw := { s.pw with seedsValid := false } }
  .next (pulse (356 + 8 * k.val) (modStack k (fun x => { x with phyFailed := true }) s))

end Sys2Proof.Machine
end

