-- ==== Sys2Proof/Machine/Pairs.lean ====
section
/-! DEFINITION. Witness pairs: joining and leaving, the checker, mismatches and dissolution (R87-R91, R398-R403, R530). -/
namespace Sys2Proof.Machine

/-! ## The acts (R401) -/

/-- The items of an act that R401 and R465 compare: without the key and the level of its access. -/
def Act.items : Act → Act
  | .store a bs tag _ _ => .store a bs tag 0 false
  | .mover ch ga d _ => .mover ch ga d false
  | .dpGo dir burst inc a bs _ => .dpGo dir burst inc a bs 0
  | .esub e ga gb _ => .esub e ga gb false
  | x => x

/-- The row of R401's table that an act belongs to. -/
def Act.row : Act → Nat
  | .store _ _ _ _ _ => 1
  | .block _ _ => 2
  | .mover _ _ _ _ => 3
  | .dpGo _ _ _ _ _ _ => 3
  | .keyr _ => 3
  | .esub _ _ _ _ => 4
  | .event _ _ => 5
  | .keyw _ _ => 6
  | .jcommit _ _ => 7
  | .leave => 8

/-- The bytes of an operand. -/
def operandBytes (v : Word) : List Byte := leBytes 16 v.toNat

/-- An act image of a MISMATCH payload (R423): address, first 16 data or operand bytes, size. The operand of an act without
data is ga, of JCOMMIT gb, of an event its function, of WPLEAVE its function (log entry 25). -/
def actImage (h : Option HeldAct) : List Byte :=
  let img (a : Nat) (bs : List Byte) (n : Nat) : List Byte := leBytes 8 a ++ padTo 16 bs ++ leBytes 4 n ++ [0, 0, 0, 0]
  match h with
  | none => List.replicate 32 0
  | some h =>
    match h.act with
    | .store a bs _ _ _ => img a bs bs.length
    | .block a bs => img a (bs.map fun b => b.getD 0) bs.length
    | .mover _ ga _ _ => img (capAddr ga.val).toNat (operandBytes ga.val) 16
    | .dpGo dir burst _ a bs _ => img (capAddr a.val).toNat bs (if dir then bs.length else 64 * 2 ^ burst.toNat)
    | .esub _ ga _ _ => img (capAddr ga.val).toNat (operandBytes ga.val) 16
    | .event fn n => img n.val [BitVec.ofNat 8 fn] 1
    | .keyw f b => img f [b] 1
    | .keyr f => img f [] 1
    | .jcommit ga gb => img (capAddr ga.val).toNat (operandBytes gb) 16
    | .leave => img 0 [10] 1

/-! ## Performing an act (R91, R260) -/

/-- A held act performed as if core x issued it in cycle t, at a place in its order of issue; `own` is the core that it counts as, with its
pair, and `to` says where a result goes (R88, R91, R260, R378, R410, R453). -/
def performAct (x own : CoreId) (pair : Option PairId) (t seq : Nat) (dests : List ResultTo) (act : Act) (s : State) : State :=
  let port (r : DpReq) (s : State) : State := sendRequest own { r with twin := pair.isSome } s
  let at_ (w : TimedDo) (s : State) : State := schedule own t 2 w s
  match act with
  | .store a bs tag key base => sendStore x seq t a bs tag key base s
  | .block a bs => sendReq x seq (performAt x a (evenFrom (t + 3))) a 0 true (.blockWrite bs) s
  | .mover ch ga _ base => at_ (.msub ch.toNat ga base (x, seq) dests) s
  | .dpGo dir burst _ a bs key =>
    port { addr := capAddr a.val, key := key, go := t, kind := if dir then .write bs else .read (64 * 2 ^ burst.toNat), twin := false } s
  | .esub e ga gb base => at_ (.esub e.toNat ga gb base (x, seq) dests) s
  | .event fn n => doEvent own t fn n s
  | .keyw f b => if inGlobal f 1 then doKeyw own t f b s else port { addr := BitVec.ofNat 52 f, key := 0, go := t, kind := .keyw b, twin := false } s
  | .keyr f => port { addr := BitVec.ofNat 52 f, key := 0, go := t, kind := .keyr, twin := false } s
  | .jcommit ga gb => at_ (.jcommit pair ga gb (x, seq) dests) s
  | .leave => s

/-! ## Dissolution (R402) -/

/-- The pair is dissolved: the checker compares nothing from here on, and the odd core has every P and S bit clear. What the
even core's loads bring for loads of the odd core that are outstanding still reaches it (R88). -/
def dissolve (n : PairId) (s : State) : State :=
  let s := s.modPair n fun p => { Pair.reset with loadQ := p.loadQ }
  s.modCore (oddCore n) fun k => { k with evP := 0, evS := 0 }

/-- R402: the acts that the even core holds, performed in cycle t as the acts of a lone core, in the order of issue. -/
def performHeld (e : CoreId) (t : Nat) : List HeldAct → State → State
  | [], s => s
  | h :: r, s => performHeld e t r (performAct e e none t h.seq [{ core := e, cycle := t, reg := h.gd, seq := h.seq }] h.act s)

/-- R330, R402: a hold applied to core c dissolves its pair; acts held when the odd core is the one that is held are performed. -/
def holdDissolves (c : CoreId) (s : State) : State :=
  let n := pairOf c
  if !paired s c then s
  else
    let acts := (s.pair n).evenActs
    let s := dissolve n s
    if c = oddCore n then performHeld (evenCore n) s.now acts s else s

/-! ## The checker (R91, R403) -/

/-- The payload of a MISMATCH entry (R423). -/
def mismatchPayload (n : PairId) (m : Nat) (e o : Option HeldAct) : List Byte :=
  let kind := match e, o with
    | some h, _ => h.act.row
    | none, some h => h.act.row
    | none, none => 0
  let who := match e, o with
    | some _, some _ => 0
    | some _, none => 1
    | none, _ => 2
  [BitVec.ofNat 8 n.val, BitVec.ofNat 8 kind, BitVec.ofNat 8 who, 0, 0, 0, 0, 0] ++ leBytes 8 m ++ actImage e ++ actImage o

/-- The address of a core's own instruction in a mismatch, 0 where it issued none (R403). -/
def actPc (h : Option HeldAct) : Nat := match h with | some h => h.pc.toNat | none => 0

/-- R403: a mismatch in cycle m. -/
def mismatch (n : PairId) (m : Nat) (e o : Option HeldAct) (s : State) : State :=
  let s := dissolve n s
  let s := machineCheck (evenCore n) m 6 (actPc e) s
  let s := machineCheck (oddCore n) m 6 (actPc o) s
  let s := raise (evNo 325) m s
  let s := modJn (fun j => { j with misCnt := satAdd j.misCnt 1 }) s
  dueMismatch m (mismatchPayload n m e o) s

/-- Two equal acts: the act is performed once in the odd core's cycle, and its result goes to both cores. -/
def performPair (n : PairId) (e o : HeldAct) (s : State) : State :=
  let s := s.modPair n fun p => { p with evenActs := p.evenActs.drop 1, oddActs := p.oddActs.drop 1 }
  if e.act = .leave then dissolve n s
  else
    performAct (oddCore n) (evenCore n) (some n) o.cycle o.seq
      [{ core := evenCore n, cycle := e.cycle, reg := e.gd, seq := e.seq }, { core := oddCore n, cycle := o.cycle, reg := o.gd, seq := o.seq }] e.act s

/-- Whether the odd core can no longer issue the act that the even core holds, in the cycle of that act. -/
def oddPast (s : State) (n : PairId) (e : HeldAct) : Bool :=
  match e.act with
  | .block _ _ => decide (e.cycle + 2 < s.now)
  | _ => decide (e.cycle + 2 < issueTime s (oddCore n))

/-- WITNESS_ACT_COMPARE (R91, R401-R403): the oldest act that is held meets the odd core's act of two cycles later. Nothing is
compared while the odd core has yet to come to that cycle. -/
def execWitnessActCompare (n : PairId) (s : State) : Host.Outcome State Fault Refusal :=
  if !(s.pair n).formed then .next s
  else
    match (s.pair n).evenActs, (s.pair n).oddActs with
    | [], [] => .next s
    | [], o :: _ => .next (mismatch n o.cycle none (some o) (settle (max s.now o.cycle) s))
    | e :: _, [] =>
      if oddPast s n e then
        .next (mismatch n (e.cycle + 2) (some e) none (settle (max s.now (e.cycle + 2)) s))
      else .next s
    | e :: _, o :: _ =>
      let m := min (e.cycle + 2) o.cycle
      let s := settle (max s.now m) s
      if o.cycle = e.cycle + 2 then
        .next (if e.act.items = o.act.items then performPair n e o s else mismatch n m (some e) (some o) s)
      else if o.cycle < e.cycle + 2 then .next (mismatch n m none (some o) s)
      else .next (mismatch n m (some e) none s)

/-! ## WPJOIN and WPLEAVE (R398, R399, R530) -/

/-- The form of WPJOIN and WPLEAVE: base level only, and banned from slot groups (R398). -/
def wpForm (s : State) (c : CoreId) (cond : Cond) (gb : Reg) (fn : BitVec 5) : Form :=
  { word := regWord cond 0x0A 0 0 gb 0 fn, cond := cond, legal := (s.core c).atBase, banned := true }

/-- The other core of a core's pair. -/
def partner (c : CoreId) : CoreId := if c.val % 2 = 0 then oddCore (pairOf c) else evenCore (pairOf c)

/-- R399: a core's store buffer and vector queue are empty in cycle t. -/
def quiet (s : State) (c : CoreId) (t : Nat) : Bool :=
  let ms := (s.core c).ms
  (presentEntries ms t).isEmpty && vecOccupied ms t == 0

/-- R399: the cases in which WPJOIN ends at once with Z = 0. -/
def joinRefused (s : State) (c : CoreId) : Bool :=
  let p := partner c
  !s.cfg.lock || paired s c || !present s p || (s.core p).x.locked

/-- A core moves past its WPJOIN, which issued in cycle x. -/
def leaveJoin (c : CoreId) (x cost : Nat) (s : State) : State :=
  let s := s.modCore c (settleCore false x)
  let s := pushFlags c (x + cost) fZ fZ s
  let s := s.modSeq c fun q => { q with joinUntil := none }
  finish c x cost (s.core c).seq s

/-- R399: the pair is formed in cycle x. -/
def formPair (n : PairId) (x : Nat) (s : State) : State :=
  let s := leaveJoin (oddCore n) x 3 (leaveJoin (evenCore n) x 1 s)
  s.modPair n fun _ => { Pair.reset with formed := true }

/-- WPJOIN ends with Z = 0. -/
def joinEnds (c : CoreId) (t : Nat) (s : State) : Body :=
  .done 1 (pushFlags c (t + 1) fZ 0 (s.modSeq c fun q => { q with joinUntil := none }))

/-- WPJOIN in cycle t (R399). -/
def joinBody (c : CoreId) (gb : Reg) (t : Nat) (s : State) : Body :=
  let k := s.core c
  let until_ := k.seq.joinUntil.getD (t + (k.reg gb).val.toNat % 2 ^ 32)
  if joinRefused s c || decide (until_ ≤ t) then joinEnds c t s
  else
    let p := partner c
    if quiet s c t && quiet s p t && (match (s.core p).seq.joinUntil with | some u => decide (t < u) | none => false) && runs s p then .moved (formPair (pairOf c) t s)
    else .held fun s => s.modSeq c fun q => { q with joinUntil := some until_ }

/-- WPJOIN (R398, R399): one command for each cycle in which it is held. -/
def execWpjoin (c : CoreId) (cond : Cond) (gb : Reg) (s : State) : Host.Outcome State Fault Refusal :=
  issue c (wpForm s c cond gb 9) (joinBody c gb) s

/-- WPJOIN_TIMEOUT (R399): the WPJOIN that holds core c ends in the cycle in which its count has passed. -/
def execWpjoinTimeout (c : CoreId) (s : State) : Host.Outcome State Fault Refusal :=
  match (s.core c).seq.joinUntil with
  | none => .next s
  | some u => issue c (wpForm s c 14 0 9) (joinEnds c) (s.modSeq c fun q => { q with nextIssue := max q.nextIssue u })

/-- WPLEAVE (R398, R530). -/
def execWpleave (c : CoreId) (cond : Cond) (s : State) : Host.Outcome State Fault Refusal :=
  issue c (wpForm s c cond 0 10) (fun t s =>
    if paired s c then .done (if c.val % 2 = 0 then 3 else 1) (holdAct c t 0 .leave s) else .done 1 s) s

end Sys2Proof.Machine
end

