-- ==== Sys2Proof/Machine/Entry.lean ====
section
/-! DEFINITION. Which instruction words decode (R92-R95 and the opcode tables), entry as an event of its own (R317), and the
hold, reset and release of a core (R328-R331), with the configuration lock (R109, R248). -/
namespace Sys2Proof.Machine

/-! ## Decode (R94, R95) -/

/-- How an instruction of a register format uses its fields: its FN, whether gd, ga and gb are used, and which W are legal:
0 only 0b00, 1 any but 0b11, 2 only 0b10. -/
structure RegRow where
  fn : Nat
  gd : Bool
  ga : Bool
  gb : Bool
  w : Nat

/-- Whether a word's fields fit one row of its opcode's table. -/
def RegRow.fits (r : RegRow) (fn gd ga gb w : Nat) : Bool :=
  fn == r.fn && (r.gd || gd == 0) && (r.ga || ga == 0) && (r.gb || gb == 0) &&
  (match r.w with | 0 => w == 0 | 1 => w != 3 | _ => w == 2)

/-- Rows that use all three registers. -/
def rows3 (fns : List Nat) (w : Nat) : List RegRow := fns.map fun n => { fn := n, gd := true, ga := true, gb := true, w := w }

/-- The register-format rows of an opcode (R99, R105, R111, R118, R137, R151, R225, R276, R343, R378, R398, R449). -/
def regRows (op : Nat) : List RegRow :=
  match op with
  | 0x00 =>
    rows3 [0, 1, 2, 3, 5, 6, 7, 8, 11, 12, 13, 14, 15] 1 ++
    [⟨4, true, false, true, 1⟩, ⟨9, false, true, true, 1⟩, ⟨10, false, true, true, 1⟩, ⟨16, true, true, false, 1⟩, ⟨17, true, true, false, 1⟩]
  | 0x08 => rows3 [0, 1, 4, 5, 6, 7] 1 ++ rows3 [2, 3] 2
  | 0x09 => rows3 [0, 1] 1 ++ [⟨2, true, false, true, 1⟩, ⟨3, true, false, true, 1⟩, ⟨4, true, false, false, 1⟩]
  | 0x0A => rows3 [0, 8] 0 ++ [⟨9, false, false, true, 0⟩, ⟨10, false, false, false, 0⟩]
  | 0x0B => [⟨0, false, false, true, 0⟩, ⟨1, false, false, true, 0⟩, ⟨2, false, false, true, 0⟩, ⟨3, true, false, false, 0⟩]
  | 0x21 => [⟨0, false, false, true, 0⟩, ⟨1, false, false, true, 0⟩]
  | 0x25 => [⟨0, true, true, false, 0⟩, ⟨1, false, false, false, 0⟩]
  | 0x26 =>
    [⟨0, true, true, false, 0⟩, ⟨1, true, true, false, 0⟩, ⟨2, true, true, false, 0⟩, ⟨3, true, true, false, 0⟩] ++
    rows3 [4, 5, 6, 7, 8, 9, 10, 13] 0 ++ [⟨11, false, true, true, 0⟩, ⟨12, true, false, true, 0⟩]
  | 0x27 => [⟨0, false, true, true, 0⟩, ⟨1, false, true, true, 0⟩, ⟨2, true, true, false, 0⟩]
  | 0x28 =>
    rows3 [0, 1, 2, 3] 0 ++ [⟨4, false, true, true, 0⟩, ⟨5, false, true, false, 0⟩, ⟨6, true, true, false, 1⟩, ⟨7, true, true, false, 1⟩]
  | 0x30 => rows3 [0, 1, 2, 3] 0
  | 0x31 => rows3 [0, 1] 0 ++ rows3 [2] 1
  | 0x32 => rows3 [0, 1] 0
  | 0x33 => rows3 [0] 0
  | 0x3C =>
    rows3 [0, 1, 2, 3, 4, 6, 7] 0 ++
    [⟨5, true, true, false, 0⟩, ⟨8, false, true, true, 0⟩, ⟨9, true, true, false, 0⟩, ⟨10, true, true, false, 0⟩]
  | 0x3D => rows3 [0, 1, 2] 0 ++ [⟨3, true, true, false, 0⟩, ⟨4, true, false, false, 0⟩, ⟨5, true, false, false, 0⟩]
  | _ => []

/-- Whether gd names an even register other than g0 (R111, R129, R226). -/
def evenPair (gd : Nat) : Bool := gd % 2 == 0 && gd != 0

/-- The further register rules of some functions (R111, R129, R152, R226). -/
def regExtra (op fn gd ga gb w : Nat) : Bool :=
  match op with
  | 0x09 => evenPair gd
  | 0x28 => fn != 3 || evenPair gd
  | 0x30 => (fn != 3 || gd != ga) && gd != gb && ga != gb
  | 0x31 => gd != ga && gd != gb && ga != gb && (fn != 2 || (w == 0) == (gd == 0))
  | 0x32 => gd != ga && gd != gb && ga != gb
  | 0x33 => gd != ga && gd != gb && ga != gb && evenPair gd && ga != gd + 1 && gb != gd + 1
  | 0x3D => fn < 2 || evenPair gd
  | _ => true

/-- The vector words (R194-R196): d, a, b the fields [21:17], [16:12], [11:7]. -/
def vecWordLegal (op d a b km fn : Nat) : Bool :=
  if op ≤ 0x38 then fn < 13 || d < 8
  else if op = 0x39 then
    (fn ≤ 5 || (fn ≤ 8 && d < 8) || (fn ≤ 10 && 9 ≤ fn && b == 0))
  else if op = 0x3A then
    match fn with
    | 0 => km != 0
    | 1 => km != 0
    | 2 => km != 0 && d == 0 && b == 0
    | 3 => d < 8 && d != km
    | 4 => d < 8 && d != km
    | 5 => km != 0
    | 6 => km != 0 && b == 0
    | _ => false
  else
    match fn with
    | 0 => b < 5
    | 1 => b == 0
    | 2 => b < 5
    | 3 => b == 0
    | 4 => km != 0 && d != b
    | 5 => km != 0 && d != b
    | 6 => km != 0 && d != b
    | 7 => km != 0
    | 8 => km != 0
    | 9 => km != 0
    | 10 => true
    | 11 => b < 5
    | 12 => b == 0 && km == 0
    | 13 => b == 0 && km == 0
    | 14 =>
      match km with
      | 4 => d < 8 && a < 8 && b == 0
      | 5 => a < 8 && b < 4
      | 6 => d < 8 && b < 4
      | 7 => false
      | _ => d < 8 && a < 8 && b < 8
    | _ => false

/-- The system words (R121, R122, R322). -/
def sysWordLegal (n : Nat) : Bool :=
  let fn := n % 32
  let low := field n 5 6
  match fn with
  | 0 => n / 32 == 0
  | 1 => low == 0 && sysListed (BitVec.ofNat 6 (field n 11 6))
  | 2 => low == 0 && sysListed (BitVec.ofNat 6 (field n 11 6))
  | 3 => field n 17 5 == 0
  | 4 => field n 17 5 == 0
  | 5 => n / 32 == 0
  | _ => false

/-- R94, R95 and the rules of each opcode: whether an instruction word decodes, the mode and the slot aside. -/
def deLegal (word : BitVec 32) : Bool :=
  let n := word.toNat % 2 ^ 22
  let op := field word.toNat 22 6
  let gd := field n 17 5
  let ga := field n 12 5
  let gb := field n 7 5
  let w := field n 5 2
  let fn := n % 32
  let reg := (regRows op).any (fun r => r.fits fn gd ga gb w) && regExtra op fn gd ga gb w
  if 1 ≤ op ∧ op ≤ 6 then field n 10 2 != 3 && (op != 6 || gd == 0)
  else if op = 7 then field n 10 2 != 3 && decide (field n 7 3 ≤ 4)
  else if 0x10 ≤ op ∧ op ≤ 0x1F then true
  else match op with
    | 0x20 => true
    | 0x22 => sysWordLegal n
    | 0x23 => word.toNat / 2 ^ 28 == 14
    | 0x24 => word.toNat / 2 ^ 28 == 14 && gd != 0 && n % 2 ^ 17 == 0
    | 0x29 => n % 8 == 0 && field n 3 3 != 7 && field n 6 6 != 32
    | 0x2A => gb != 31
    | 0x2B => gb != 31
    | 0x2C => true
    | 0x2D => true
    | 0x2E => true
    | 0x2F => true
    | 0x3E => !n.testBit 6
    | _ => if 0x34 ≤ op ∧ op ≤ 0x3B then vecWordLegal op gd ga gb (field n 4 3) (n % 16) else reg

/-! ## Entry (R305, R317) -/

/-- The form of a word that does not decode: an IMM prefix extends it where it is of the immediate format (R97, R98). -/
def undecodedForm (word : BitVec 32) : Form :=
  let op := field word.toNat 22 6
  { word := word, cond := 14, legal := false, ext := if 1 ≤ op ∧ op ≤ 6 then .imm else .none }

/-- NATIVE_ENTRY (R317): what is due at the boundary of core c is taken; where nothing is, a word there that does not decode
raises ILLEGAL. A word that decodes is offered by its own command, and nothing happens here. -/
def execNativeEntry (c : CoreId) (word : BitVec 32) (u : State) : Host.Outcome State Fault Refusal :=
  let (t, s) := nextBoundary c u
  if !canIssue s c then .next u
  else
    match (s.core c).seq.str, (s.core c).seq.trap with
    | some _, _ => .next (stringPoint c t (fun _ => u) (atBoundary c t s))
    | none, some q =>
      let s0 := atBoundary c t s
      .next (resolve c (undecodedForm word) t s0 (s0.modCore c (settleCore false t)) (.de q))
    | none, none =>
      let s0 := fetchCheck c t (atBoundary c t s)
      let s1 := s0.modCore c (settleCore false t)
      let v : Verdict := if deLegal word then .run (.moved u) else
        match deFault (s1.core c) (undecodedForm word) with
        | some q => .de q
        | none => .run (.moved u)
      .next (resolve c (undecodedForm word) t s0 s1 v)

/-- BASE_ENTRY (R305, R317): the base cause that is due at the boundary of core c is taken. -/
def execBaseEntry (c : CoreId) (u : State) : Host.Outcome State Fault Refusal :=
  let (t, s) := nextBoundary c u
  if !canIssue s c then .next u
  else
    let s0 := if (s.core c).seq.str.isSome then leavePoint c t (atBoundary c t s) else fetchCheck c t (atBoundary c t s)
    match baseDue c t s0 with
    | some s => .next s
    | none => .next u

/-! ## Core reset (R328-R331) -/

/-- The hold of one core changed, due after the crossing into the always-on domain (R329); the changes of one core keep
their order. -/
def scheduleHold (c : CoreId) (hold : Bool) (s : State) : State :=
  let (d, s) := drawAlwaysOn s
  let last := ((s.pw.crholdDue.filter fun x => x.2.1 = c).map fun x => x.1).foldl max 0
  { s with pw := { s.pw with crholdDue := s.pw.crholdDue ++ [(max (s.now + d) last, c, hold)] } }

/-- A store to CRHOLD performed in the current cycle (R328, R329). -/
def doCrhold (v : BitVec 64) (s : State) : State :=
  let changed := allCores.filter fun c => present s c && (s.pw.crhold.getLsbD c.val != v.getLsbD c.val)
  changed.foldl (fun s c =>
    scheduleHold c (v.getLsbD c.val) { s with pw := { s.pw with crhold := putBit s.pw.crhold c.val (v.getLsbD c.val) } }) s

/-- CRHOLD (R328, R329). -/
def execCrhold (v : BitVec 64) (s : State) : Host.Outcome State Fault Refusal := .next (doCrhold v s)

/-- The memory side of a core that is reset: what waits is discarded, what is in the fabric is performed, and a load
delivers nothing (R330). -/
def MemSide.discard (m : MemSide) : MemSide :=
  { MemSide.reset with freqs := m.freqs, blocks := m.blocks, nextId := m.nextId,
                       gloads := (m.gloads.filter fun g => !g.twin).map fun g => { g with dest := .reg 0 false } }

/-- A write that the data port has sent is performed (R330), and a burst of a pair goes on for the other core (R465). -/
def finishPort (c : CoreId) (s : State) : State :=
  let d := (s.core c).dp
  match d.req with
  | none => s
  | some r =>
    let o := oddCore (pairOf c)
    if r.twin && c != o then
      let s := s.modDp o fun x => { x with req := some { r with twin := false }, reply := d.reply }
      if d.reply.isSome then s else schedule o (r.go + 3) 0 .burst s
    else if d.reply.isSome then s
    else
      match r.kind with
      | .write _ => (performBurst r s).2
      | .keyw _ => (performBurst r s).2
      | _ => s

/-- The line of event 337 and LOCKUP_N fall when no core is locked any more (R327, R330). -/
def lockCleared (s : State) : State :=
  if allCores.any fun c => (s.core c).x.locked then s
  else
    let (d1, s) := drawAlwaysOn s
    let (d2, s) := drawCompute s
    setLine 337 false (s.now + d1 + d2) s

/-- Core c is reset and held (R330). -/
def holdCore (c : CoreId) (s : State) : State :=
  let s := finishPort c (holdDissolves c s)
  let locked := (s.core c).x.locked
  let s := (unschedule c s).modCore c fun k => { Core.reset 0 true with ms := k.ms.discard }
  if locked then lockCleared s else s

/-- Core c starts after its release is applied in cycle t (R331). -/
def releaseCore (c : CoreId) (t : Nat) (s : State) : State :=
  s.modCore c fun k =>
    let n := Core.reset 1 false
    { n with ms := k.ms, seq := { n.seq with nextIssue := t + 64, deAt := t + 63 } }

/-- The first change of core c's hold in a direction that is due, taken out. -/
def takeHold (c : CoreId) (hold : Bool) (s : State) : Option (Nat × State) :=
  match s.pw.crholdDue.find? fun x => x.2.1 = c with
  | some (t, _, h) =>
    if h = hold then some (t, { s with pw := { s.pw with crholdDue := s.pw.crholdDue.erase (t, c, h) } }) else none
  | none => none

/-- A change of core c's hold is applied in the current cycle; CRSTAT.INRESET follows it 40 to 60 ns later (R329). -/
def showHold (c : CoreId) (hold : Bool) (s : State) : State :=
  let (d, s) := drawAlwaysOn s
  let last := ((s.pw.crSeen.filter fun x => x.2.1 = c).map fun x => x.1).foldl max 0
  { s with pw := { s.pw with crSeen := (s.pw.crSeen.filter fun x => s.now < x.1) ++ [(max (s.now + d) last, c, hold)] } }

/-- CRSTAT.INRESET of core c as a load of the current cycle reads it (R328, R329). -/
def inResetSeen (s : State) (c : CoreId) : Bool :=
  match s.pw.crSeen.find? fun x => x.2.1 = c && decide (s.now < x.1) with
  | some (_, _, hold) => !hold
  | none => (s.core c).seq.inReset

/-- CORE_RESET_HOLD_APPLIED (R329, R330). -/
def execCoreResetHoldApplied (c : CoreId) (s : State) : Host.Outcome State Fault Refusal :=
  match takeHold c true s with
  | some (t, s) => .next (showHold c true (holdCore c (settle (max s.now t) s)))
  | none => .next s

/-- CORE_RESET_RELEASE (R329, R331). -/
def execCoreResetRelease (c : CoreId) (s : State) : Host.Outcome State Fault Refusal :=
  match takeHold c false s with
  | some (t, s) => .next (showHold c false (releaseCore c (max s.now t) (settle (max s.now t) s)))
  | none => .next s

/-! ## The configuration lock (R109, R248) -/

/-- LOCK written with 1: LK fields are frozen, and DIVMODE takes effect (R109). -/
def setLock (s : State) : State :=
  if s.cfg.lock then s
  else { s with cfg := { s.cfg with lock := true, divact := s.cfg.divmode, divSince := s.now } }

/-- CFGLOCK_LOCK (R109, R248). -/
def execCfglockLock (s : State) : Host.Outcome State Fault Refusal := .next (setLock s)

end Sys2Proof.Machine
end

