-- ==== Sys2Proof/Decode.lean ====
section
/-! DEFINITION. From words to commands: the instruction words of a core (R92-R95 and the encodings of each group) and the microwords of the
control store (R352-R359). The table of operations and events gives no row any bits, so that no word of its bits spells a command. -/
namespace Sys2Proof

/-- The command that a word of the table's bits spells: none, since spec/opcode_table.json gives no row bits. -/
def decodeTableWord (_nbits _w : Nat) : Option Instr := none

/-! ## Instruction words -/

/-- The fields of an instruction word that its formats share (R92, R128, R194). -/
structure WordFields where
  cond : Cond
  gd : Reg
  ga : Reg
  gb : Reg
  w : Wf
  km : KReg
  fn : Nat
  vfn : Nat
  deriving DecidableEq, Repr

/-- A field that names a general register, a vector register or a number of five bits. -/
def regField (v : BitVec 32) (lo : Nat) : Reg := BitVec.toFin (v.extractLsb' lo 5)

/-- The low three bits of a mask-register field. -/
def maskField (v : BitVec 32) (lo : Nat) : KReg := BitVec.toFin (v.extractLsb' lo 3)

/-- The fields of a word (R92, R128, R194). -/
def wordFields (v : BitVec 32) : WordFields :=
  { cond := v.extractLsb' 28 4, gd := regField v 17, ga := regField v 12, gb := regField v 7, w := v.extractLsb' 5 2,
    km := maskField v 4, fn := (v.extractLsb' 0 5).toNat, vfn := (v.extractLsb' 0 4).toNat }

/-- The element width of an ET field or of an integer vector opcode (R194, R195). -/
def elementOf : Nat → VElt
  | 0 => .byte
  | 1 => .half
  | 2 => .word
  | 3 => .dbl
  | _ => .quad

/-- Opcode 0x00 (R99). -/
def decodeAlu (c : CoreId) (x : WordFields) : Option Instr :=
  match x.fn with
  | 0 => some (.add c x.cond x.w x.gd x.ga x.gb)
  | 1 => some (.sub c x.cond x.w x.gd x.ga x.gb)
  | 2 => some (.adc c x.cond x.w x.gd x.ga x.gb)
  | 3 => some (.sbc c x.cond x.w x.gd x.ga x.gb)
  | 4 => some (.neg c x.cond x.w x.gd x.gb)
  | 5 => some (.and c x.cond x.w x.gd x.ga x.gb)
  | 6 => some (.or c x.cond x.w x.gd x.ga x.gb)
  | 7 => some (.xor c x.cond x.w x.gd x.ga x.gb)
  | 8 => some (.andn c x.cond x.w x.gd x.ga x.gb)
  | 9 => some (.cmp c x.cond x.w x.ga x.gb)
  | 10 => some (.tst c x.cond x.w x.ga x.gb)
  | 11 => some (.sll c x.cond x.w x.gd x.ga x.gb)
  | 12 => some (.srl c x.cond x.w x.gd x.ga x.gb)
  | 13 => some (.sra c x.cond x.w x.gd x.ga x.gb)
  | 14 => some (.rol c x.cond x.w x.gd x.ga x.gb)
  | 15 => some (.ror c x.cond x.w x.gd x.ga x.gb)
  | 16 => some (.clz c x.cond x.w x.gd x.ga)
  | 17 => some (.popc c x.cond x.w x.gd x.ga)
  | _ => none

/-- Opcodes 0x01 to 0x07 (R92, R101, R102). -/
def decodeImmediate (c : CoreId) (v : BitVec 32) (x : WordFields) : Option Instr :=
  let w : Wf := v.extractLsb' 10 2
  let i : BitVec 10 := v.extractLsb' 0 10
  let a : BitVec 7 := v.extractLsb' 0 7
  match (v.extractLsb' 22 6).toNat, (v.extractLsb' 7 3).toNat with
  | 1, _ => some (.addi c x.cond w x.gd x.ga i)
  | 2, _ => some (.subi c x.cond w x.gd x.ga i)
  | 3, _ => some (.andi c x.cond w x.gd x.ga i)
  | 4, _ => some (.ori c x.cond w x.gd x.ga i)
  | 5, _ => some (.xori c x.cond w x.gd x.ga i)
  | 6, _ => some (.cmpi c x.cond w x.ga i)
  | 7, 0 => some (.slli c x.cond w x.gd x.ga a)
  | 7, 1 => some (.srli c x.cond w x.gd x.ga a)
  | 7, 2 => some (.srai c x.cond w x.gd x.ga a)
  | 7, 3 => some (.roli c x.cond w x.gd x.ga a)
  | 7, 4 => some (.rori c x.cond w x.gd x.ga a)
  | _, _ => none

/-- Opcodes 0x08 and 0x09 (R105, R111). -/
def decodeMultiply (c : CoreId) (op : Nat) (x : WordFields) : Option Instr :=
  match op, x.fn with
  | 8, 0 => some (.mul c x.cond x.w x.gd x.ga x.gb)
  | 8, 1 => some (.mulu c x.cond x.w x.gd x.ga x.gb)
  | 8, 2 => some (.mulh c x.cond x.w x.gd x.ga x.gb)
  | 8, 3 => some (.mulhu c x.cond x.w x.gd x.ga x.gb)
  | 8, 4 => some (.div c x.cond x.w x.gd x.ga x.gb)
  | 8, 5 => some (.divu c x.cond x.w x.gd x.ga x.gb)
  | 8, 6 => some (.rem c x.cond x.w x.gd x.ga x.gb)
  | 8, 7 => some (.remu c x.cond x.w x.gd x.ga x.gb)
  | 9, 0 => some (.dsteps c x.cond x.w x.gd x.ga x.gb)
  | 9, 1 => some (.dstepsu c x.cond x.w x.gd x.ga x.gb)
  | 9, 2 => some (.dstep c x.cond x.w x.gd x.gb)
  | 9, 3 => some (.dstepu c x.cond x.w x.gd x.gb)
  | 9, 4 => some (.dstepf c x.cond x.w x.gd)
  | _, _ => none

/-- Opcodes 0x0A, 0x0B and 0x25 (R343, R378, R398, R449). -/
def decodeUnit (c : CoreId) (op : Nat) (x : WordFields) : Option Instr :=
  match op, x.fn with
  | 0x0A, 0 => some (.esub c x.cond x.gd x.ga x.gb)
  | 0x0A, 8 => some (.jcommit c x.cond x.gd x.ga x.gb)
  | 0x0A, 9 => some (.wpjoin c x.cond x.gb)
  | 0x0A, 10 => some (.wpleave c x.cond)
  | 0x0B, 0 => some (.evraise c x.cond x.gb)
  | 0x0B, 1 => some (.evack c x.cond x.gb)
  | 0x0B, 2 => some (.evclr c x.cond x.gb)
  | 0x0B, 3 => some (.evnext c x.cond x.gd)
  | 0x25, 0 => some (.msub c x.cond x.gd x.ga)
  | 0x25, 1 => some (.dpwait c x.cond)
  | _, _ => none

/-- Opcodes 0x10 to 0x1F (R114). -/
def decodeMemory (c : CoreId) (v : BitVec 32) (x : WordFields) : Option Instr :=
  let off : BitVec 12 := v.extractLsb' 0 12
  match (v.extractLsb' 22 6).toNat with
  | 0x10 => some (.ldb c x.cond x.gd x.ga off)
  | 0x11 => some (.ldbu c x.cond x.gd x.ga off)
  | 0x12 => some (.ldh c x.cond x.gd x.ga off)
  | 0x13 => some (.ldhu c x.cond x.gd x.ga off)
  | 0x14 => some (.ldw c x.cond x.gd x.ga off)
  | 0x15 => some (.ldwu c x.cond x.gd x.ga off)
  | 0x16 => some (.ldd c x.cond x.gd x.ga off)
  | 0x17 => some (.lddu c x.cond x.gd x.ga off)
  | 0x18 => some (.ldq c x.cond x.gd x.ga off)
  | 0x19 => some (.ldcap c x.cond x.gd x.ga off)
  | 0x1A => some (.stb c x.cond x.gd x.ga off)
  | 0x1B => some (.sth c x.cond x.gd x.ga off)
  | 0x1C => some (.stw c x.cond x.gd x.ga off)
  | 0x1D => some (.std c x.cond x.gd x.ga off)
  | 0x1E => some (.stq c x.cond x.gd x.ga off)
  | 0x1F => some (.stcap c x.cond x.gd x.ga off)
  | _ => none

/-- Opcodes 0x20 to 0x24 (R92, R118, R121, R122, R176, R322). -/
def decodeFlow (c : CoreId) (v : BitVec 32) (x : WordFields) : Option Instr :=
  let sr : BitVec 6 := v.extractLsb' 11 6
  let code : BitVec 12 := v.extractLsb' 5 12
  match (v.extractLsb' 22 6).toNat, x.fn with
  | 0x20, _ => some (if v.getLsbD 21 then .bl c x.cond (v.extractLsb' 0 21) else .b c x.cond (v.extractLsb' 0 21))
  | 0x21, 0 => some (.br c x.cond x.gb)
  | 0x21, 1 => some (.brl c x.cond x.gb)
  | 0x22, 0 => some (.nop c x.cond)
  | 0x22, 1 => some (.mfs c x.cond x.gd sr)
  | 0x22, 2 => some (.mts c x.cond x.gd sr)
  | 0x22, 3 => some (.svc c x.cond code)
  | 0x22, 4 => some (.basecall c x.cond code)
  | 0x22, 5 => some (.xret c x.cond)
  | 0x23, _ => some (.imm c x.cond (v.extractLsb' 0 22))
  | 0x24, _ => some (.rpt c x.cond x.gd)
  | _, _ => none

/-- Opcodes 0x26 and 0x27 (R276, R283, R288, R290). -/
def decodeCapability (c : CoreId) (op : Nat) (x : WordFields) : Option Instr :=
  match op, x.fn with
  | 0x26, 0 => some (.cmov c x.cond x.gd x.ga)
  | 0x26, 1 => some (.cgetbase c x.cond x.gd x.ga)
  | 0x26, 2 => some (.cgetlen c x.cond x.gd x.ga)
  | 0x26, 3 => some (.cgettag c x.cond x.gd x.ga)
  | 0x26, 4 => some (.csetaddr c x.cond x.gd x.ga x.gb)
  | 0x26, 5 => some (.cincaddr c x.cond x.gd x.ga x.gb)
  | 0x26, 6 => some (.csetb c x.cond x.gd x.ga x.gb)
  | 0x26, 7 => some (.candp c x.cond x.gd x.ga x.gb)
  | 0x26, 8 => some (.csetkey c x.cond x.gd x.ga x.gb)
  | 0x26, 9 => some (.cseal c x.cond x.gd x.ga x.gb)
  | 0x26, 10 => some (.cunseal c x.cond x.gd x.ga x.gb)
  | 0x26, 11 => some (.ctstsub c x.cond x.ga x.gb)
  | 0x26, 12 => some (.cprec c x.cond x.gd x.gb)
  | 0x26, 13 => some (.calgn c x.cond x.gd x.ga x.gb)
  | 0x27, 0 => some (.cinvoke c x.cond x.ga x.gb)
  | 0x27, 1 => some (.keyw c x.cond x.ga x.gb)
  | 0x27, 2 => some (.keyr c x.cond x.gd x.ga)
  | _, _ => none

/-- Opcodes 0x28 to 0x2F (R127, R128). -/
def decodeDecimal (c : CoreId) (v : BitVec 32) (x : WordFields) : Option Instr :=
  let n : BitVec 5 := v.extractLsb' 7 5
  let o7 : BitVec 7 := v.extractLsb' 0 7
  let l : BitVec 4 := v.extractLsb' 8 4
  let o8 : BitVec 8 := v.extractLsb' 0 8
  match (v.extractLsb' 22 6).toNat, x.fn with
  | 0x28, 0 => some (.dadd c x.cond x.gd x.ga x.gb)
  | 0x28, 1 => some (.dsub c x.cond x.gd x.ga x.gb)
  | 0x28, 2 => some (.dmul c x.cond x.gd x.ga x.gb)
  | 0x28, 3 => some (.ddiv c x.cond x.gd x.ga x.gb)
  | 0x28, 4 => some (.dcmp c x.cond x.ga x.gb)
  | 0x28, 5 => some (.dtst c x.cond x.ga)
  | 0x28, 6 => some (.dcvb c x.cond x.w x.gd x.ga)
  | 0x28, 7 => some (.dcvd c x.cond x.w x.gd x.ga)
  | 0x29, _ => some (.dsrr c x.cond x.gd x.ga (v.extractLsb' 6 6) (v.extractLsb' 3 3))
  | 0x2A, _ => some (.pack c x.cond x.gd x.ga n o7)
  | 0x2B, _ => some (.unpk c x.cond x.gd x.ga n o7)
  | 0x2C, _ => some (.dld c x.cond x.gd x.ga l o8)
  | 0x2D, _ => some (.dst c x.cond x.gd x.ga l o8)
  | 0x2E, _ => some (.daddm c x.cond x.gd x.ga l o8)
  | 0x2F, _ => some (.dsubm c x.cond x.gd x.ga l o8)
  | _, _ => none

/-- Opcodes 0x30 to 0x33 (R151). -/
def decodeString (c : CoreId) (op : Nat) (x : WordFields) : Option Instr :=
  match op, x.fn with
  | 0x30, 0 => some (.mvb c x.cond x.gd x.ga x.gb)
  | 0x30, 1 => some (.mvbl c x.cond x.gd x.ga x.gb)
  | 0x30, 2 => some (.clcb c x.cond x.gd x.ga x.gb)
  | 0x30, 3 => some (.scb c x.cond x.gd x.ga x.gb)
  | 0x31, 0 => some (.trb c x.cond x.gd x.ga x.gb)
  | 0x31, 1 => some (.trt c x.cond x.gd x.ga x.gb)
  | 0x31, 2 => some (.u8v c x.cond x.w x.gd x.ga x.gb)
  | 0x32, 0 => some (.edb c x.cond x.gd x.ga x.gb)
  | 0x32, 1 => some (.edm c x.cond x.gd x.ga x.gb)
  | 0x33, 0 => some (.fldw c x.cond x.gd x.ga x.gb)
  | _, _ => none

/-- Opcodes 0x34 to 0x38: the integer lane instructions of an element width (R194, R195). -/
def decodeVecInt (c : CoreId) (e : VElt) (kd : KReg) (x : WordFields) : Option Instr :=
  match x.vfn with
  | 0 => some (.vadd c x.cond e x.gd x.ga x.gb x.km)
  | 1 => some (.vsub c x.cond e x.gd x.ga x.gb x.km)
  | 2 => some (.vmul c x.cond e x.gd x.ga x.gb x.km)
  | 3 => some (.vand c x.cond e x.gd x.ga x.gb x.km)
  | 4 => some (.vor c x.cond e x.gd x.ga x.gb x.km)
  | 5 => some (.vxor c x.cond e x.gd x.ga x.gb x.km)
  | 6 => some (.vsll c x.cond e x.gd x.ga x.gb x.km)
  | 7 => some (.vsrl c x.cond e x.gd x.ga x.gb x.km)
  | 8 => some (.vsra c x.cond e x.gd x.ga x.gb x.km)
  | 9 => some (.vmin c x.cond e x.gd x.ga x.gb x.km)
  | 10 => some (.vmax c x.cond e x.gd x.ga x.gb x.km)
  | 11 => some (.vminu c x.cond e x.gd x.ga x.gb x.km)
  | 12 => some (.vmaxu c x.cond e x.gd x.ga x.gb x.km)
  | 13 => some (.vcmpeq c x.cond e kd x.ga x.gb x.km)
  | 14 => some (.vcmplt c x.cond e kd x.ga x.gb x.km)
  | 15 => some (.vcmpltu c x.cond e kd x.ga x.gb x.km)
  | _ => none

/-- Opcodes 0x39 and 0x3A: the binary32 and the decimal lane instructions (R194, R195). -/
def decodeVecWide (c : CoreId) (op : Nat) (kd : KReg) (sh : BitVec 5) (x : WordFields) : Option Instr :=
  match op, x.vfn with
  | 0x39, 0 => some (.vfadd c x.cond x.gd x.ga x.gb x.km)
  | 0x39, 1 => some (.vfsub c x.cond x.gd x.ga x.gb x.km)
  | 0x39, 2 => some (.vfmul c x.cond x.gd x.ga x.gb x.km)
  | 0x39, 3 => some (.vffma c x.cond x.gd x.ga x.gb x.km)
  | 0x39, 4 => some (.vfmin c x.cond x.gd x.ga x.gb x.km)
  | 0x39, 5 => some (.vfmax c x.cond x.gd x.ga x.gb x.km)
  | 0x39, 6 => some (.vfcmpeq c x.cond kd x.ga x.gb x.km)
  | 0x39, 7 => some (.vfcmplt c x.cond kd x.ga x.gb x.km)
  | 0x39, 8 => some (.vfcmple c x.cond kd x.ga x.gb x.km)
  | 0x39, 9 => some (.vfcvtsw c x.cond x.gd x.ga x.km)
  | 0x39, 10 => some (.vfcvtws c x.cond x.gd x.ga x.km)
  | 0x3A, 0 => some (.vdadd c x.cond x.gd x.ga x.gb x.km)
  | 0x3A, 1 => some (.vdsub c x.cond x.gd x.ga x.gb x.km)
  | 0x3A, 2 => some (.vdtst c x.cond x.ga x.km)
  | 0x3A, 3 => some (.vdcmpeq c x.cond kd x.ga x.gb x.km)
  | 0x3A, 4 => some (.vdcmplt c x.cond kd x.ga x.gb x.km)
  | 0x3A, 5 => some (.vdsrr c x.cond x.gd x.ga sh x.km)
  | 0x3A, 6 => some (.vdsum c x.cond x.gd x.ga x.km)
  | _, _ => none

/-- Opcode 0x3B: vector memory, moves and mask operations (R194, R195). -/
def decodeVecMove (c : CoreId) (v : BitVec 32) (x : WordFields) : Option Instr :=
  let e := elementOf (v.extractLsb' 7 5).toNat
  let kd := maskField v 17
  let ka := maskField v 12
  let q : BitVec 2 := v.extractLsb' 7 2
  match x.vfn, x.km.val with
  | 0, _ => some (.vld c x.cond e x.gd x.ga x.km)
  | 1, _ => some (.vldd c x.cond x.gd x.ga x.km)
  | 2, _ => some (.vst c x.cond e x.gd x.ga x.km)
  | 3, _ => some (.vstd c x.cond x.gd x.ga x.km)
  | 4, _ => some (.vgathq c x.cond x.gd x.ga x.gb x.km)
  | 5, _ => some (.vgathd c x.cond x.gd x.ga x.gb x.km)
  | 6, _ => some (.vgathw c x.cond x.gd x.ga x.gb x.km)
  | 7, _ => some (.vscatq c x.cond x.gd x.ga x.gb x.km)
  | 8, _ => some (.vscatd c x.cond x.gd x.ga x.gb x.km)
  | 9, _ => some (.vscatw c x.cond x.gd x.ga x.gb x.km)
  | 10, _ => some (.vtrb c x.cond x.gd x.ga x.gb x.km)
  | 11, _ => some (.vsplat c x.cond e x.gd x.ga x.km)
  | 12, _ => some (.vmovg c x.cond x.gd x.ga)
  | 13, _ => some (.vmovw c x.cond x.gd x.ga)
  | 14, 0 => some (.kand c x.cond kd ka (maskField v 7))
  | 14, 1 => some (.kor c x.cond kd ka (maskField v 7))
  | 14, 2 => some (.kxor c x.cond kd ka (maskField v 7))
  | 14, 3 => some (.kandn c x.cond kd ka (maskField v 7))
  | 14, 4 => some (.knot c x.cond kd ka)
  | 14, 5 => some (.kmovg c x.cond x.gd ka q)
  | 14, 6 => some (.kmovk c x.cond kd x.ga q)
  | _, _ => none

/-- Opcodes 0x3C and 0x3D (R225). -/
def decodeFloat (c : CoreId) (op : Nat) (sh : BitVec 5) (x : WordFields) : Option Instr :=
  match op, x.fn with
  | 0x3C, 0 => some (.fadd c x.cond x.gd x.ga x.gb)
  | 0x3C, 1 => some (.fsub c x.cond x.gd x.ga x.gb)
  | 0x3C, 2 => some (.fmul c x.cond x.gd x.ga x.gb)
  | 0x3C, 3 => some (.ffma c x.cond x.gd x.ga x.gb)
  | 0x3C, 4 => some (.fdiv c x.cond x.gd x.ga x.gb)
  | 0x3C, 5 => some (.fsqrt c x.cond x.gd x.ga)
  | 0x3C, 6 => some (.fmin c x.cond x.gd x.ga x.gb)
  | 0x3C, 7 => some (.fmax c x.cond x.gd x.ga x.gb)
  | 0x3C, 8 => some (.fcmp c x.cond x.ga x.gb)
  | 0x3C, 9 => some (.fneg c x.cond x.gd x.ga)
  | 0x3C, 10 => some (.fabs c x.cond x.gd x.ga)
  | 0x3D, 0 => some (.fcvtsw c x.cond x.gd x.ga sh)
  | 0x3D, 1 => some (.fcvtws c x.cond x.gd x.ga sh)
  | 0x3D, 2 => some (.fdstepd c x.cond x.gd x.ga x.gb)
  | 0x3D, 3 => some (.fdstepr c x.cond x.gd x.ga)
  | 0x3D, 4 => some (.fdstep c x.cond x.gd)
  | 0x3D, 5 => some (.fdstepf c x.cond x.gd)
  | _, _ => none

/-- The command that an instruction word is on core c, none where it does not decode (R92-R95, R98, R127, R194, R196). A word that is ILLEGAL
only for the core's mode, level or slot decodes, and its command raises the cause. MFS and MTS of the data-port registers are MFS and MTS. -/
def decodeWord (c : CoreId) (v : BitVec 32) : Option Instr :=
  let x := wordFields v
  let op := (v.extractLsb' 22 6).toNat
  let sh : BitVec 5 := v.extractLsb' 7 5
  if !Machine.deLegal v then none
  else if op = 0 then decodeAlu c x
  else if op ≤ 7 then decodeImmediate c v x
  else if op ≤ 9 then decodeMultiply c op x
  else if op ≤ 0x0B ∨ op = 0x25 then decodeUnit c op x
  else if 0x10 ≤ op ∧ op ≤ 0x1F then decodeMemory c v x
  else if 0x20 ≤ op ∧ op ≤ 0x24 then decodeFlow c v x
  else if 0x26 ≤ op ∧ op ≤ 0x27 then decodeCapability c op x
  else if 0x28 ≤ op ∧ op ≤ 0x2F then decodeDecimal c v x
  else if 0x30 ≤ op ∧ op ≤ 0x33 then decodeString c op x
  else if 0x34 ≤ op ∧ op ≤ 0x38 then decodeVecInt c (elementOf (op - 0x34)) (maskField v 17) x
  else if op = 0x39 ∨ op = 0x3A then decodeVecWide c op (maskField v 17) sh x
  else if op = 0x3B then decodeVecMove c v x
  else if op = 0x3C ∨ op = 0x3D then decodeFloat c op sh x
  else if op = 0x3E then some (.xop c x.cond (v.extractLsb' 0 6) x.gd x.ga x.gb)
  else none

/-! ## Microwords -/

/-- MOP 0x00 (R356). -/
def decodeMicroAlu (c : CoreId) (fn : Nat) (d a b : MOpnd) (w : Wf) (f : Bool) : Option Instr :=
  match fn with
  | 0 => some (.microAdd c d a b w f)
  | 1 => some (.microSub c d a b w f)
  | 2 => some (.microAdc c d a b w f)
  | 3 => some (.microSbc c d a b w f)
  | 4 => some (.microAnd c d a b w f)
  | 5 => some (.microOr c d a b w f)
  | 6 => some (.microXor c d a b w f)
  | 7 => some (.microAndn c d a b w f)
  | 8 => some (.microSll c d a b w f)
  | 9 => some (.microSrl c d a b w f)
  | 10 => some (.microSra c d a b w f)
  | 11 => some (.microRol c d a b w f)
  | 12 => some (.microRor c d a b w f)
  | 13 => some (.microClz c d a w f)
  | 14 => some (.microPopc c d a w f)
  | _ => none

/-- MOP 0x01 and 0x02 (R356). -/
def decodeMicroDec (c : CoreId) (byte : Bool) (fn : Nat) (d a b : MOpnd) : Option Instr :=
  match byte, fn with
  | false, 0 => some (.dval c a b)
  | false, 1 => some (.daddx c d a b)
  | false, 2 => some (.dsubx c d a b)
  | false, 3 => some (.dsl1 c d a)
  | false, 4 => some (.dsr1 c d a)
  | false, 5 => some (.dmd c d a b)
  | false, 6 => some (.dcmpm c a b)
  | false, 7 => some (.dsgn c d a b)
  | true, 0 => some (.getb c d a b)
  | true, 1 => some (.putb c d a b)
  | true, 2 => some (.getn c d a b)
  | true, 3 => some (.putn c d a b)
  | _, _ => none

/-- The command that a microword is on core c, none where its MOP or its FN is not in the tables of R355 and R356 (R352-R359). The fields that
must be 0 are the loader's to check (R374). -/
def decodeMicroword (c : CoreId) (v : BitVec 32) : Option Instr :=
  let d : MOpnd := v.extractLsb' 21 6
  let a : MOpnd := v.extractLsb' 15 6
  let b : MOpnd := v.extractLsb' 9 6
  let fn := (v.extractLsb' 5 4).toNat
  let w : Wf := v.extractLsb' 3 2
  let f := v.getLsbD 2
  let i : BitVec 14 := v.extractLsb' 0 14
  let fi := v.getLsbD 14
  let sz : BitVec 3 := v.extractLsb' 6 3
  let u : MOpnd := v.extractLsb' 17 6
  let target : BitVec 15 := v.extractLsb' 0 15
  match (v.extractLsb' 27 5).toNat with
  | 0x00 => decodeMicroAlu c fn d a b w f
  | 0x01 => decodeMicroDec c false fn d a b
  | 0x02 => decodeMicroDec c true fn d a b
  | 0x03 => some (.sreg c d b)
  | 0x04 => some (.microAddi c d a fi i)
  | 0x05 => some (.microAndi c d a fi i)
  | 0x06 => some (.microOri c d a fi i)
  | 0x07 => some (.shi c d a i)
  | 0x08 => some (.lit c d i)
  | 0x09 => some (.mld c d a b sz)
  | 0x0A => some (.mst c d a b sz)
  | 0x0B => some (.mchk c d a b sz)
  | 0x0C => some (.adv c d a b)
  | 0x0D => some (.setf c (v.extractLsb' 3 6))
  | 0x10 => some (.microBr c (v.extractLsb' 23 4) target)
  | 0x11 => some (.loop c u target)
  | 0x12 => some (.call c target)
  | 0x13 => some (.microRet c)
  | 0x14 => some (.yield c (v.getLsbD 26))
  | 0x15 => some (.exit c)
  | 0x16 =>
    let cause : BitVec 8 := v.extractLsb' 0 8
    some (if cause = 1 then .trapIllegal c else .trapArithmetic c cause)
  | _ => none

end Sys2Proof
end

