-- ==== Sys2Proof/Machine/Integer.lean ====
section
/-! DEFINITION. The integer instructions: register and immediate forms, shifts, multiplication, division and the
division steps (R99-R113). -/
namespace Sys2Proof.Machine

/-! ## Shared operations -/

/-- A result of n bits and its flags, visible from cycle `due` on (R22, R62). -/
def writeInt (c : CoreId) (due n : Nat) (gd : Option Reg) (o : IntOut) (s : State) : State :=
  let s := match gd with
    | some r => pushReg c due r (signFill n o.d) s
    | none => s
  pushFlags c due o.mask o.vals s

/-- INT_OVERFLOW (R303). -/
def cIntOverflow : BitVec 8 := 0x10
/-- INT_DIVZERO (R303). -/
def cIntDivzero : BitVec 8 := 0x11

/-- The cycle in which the instruction that issues in cycle t reached DE (R54). -/
def deCycle (q : Seq) (t : Nat) : Nat := if t = q.nextIssue then q.deAt else t - 1

/-- R107-R110: STEP mode in force for the instruction of core c that issues in cycle t. -/
def stepMode (s : State) (c : CoreId) (t : Nat) : Bool := s.cfg.divact && decide (s.cfg.divSince < deCycle (s.core c).seq t)

/-- The same for the instruction at the boundary of core c that comes next. -/
def stepDue (s : State) (c : CoreId) : Bool :=
  let (t, s) := nextBoundary c s
  stepMode s c t

/-- An integer instruction with a 1 cc result; `traps` tells whether V = 1 can raise INT_OVERFLOW (R103). -/
def aluBody (c : CoreId) (n : Nat) (gd : Option Reg) (traps : Bool) (out : Core → IntOut) (t : Nat) (s : State) : Body :=
  let k := s.core c
  let o := out k
  let s := writeInt c (t + 1) n gd o s
  let s := causeIf (traps && stOE k.x.status && o.vals.getLsbD 3) c cIntOverflow s
  .done (if traps then paCost k 1 else 1) s

/-- The form of an integer instruction of opcodes 0x00 to 0x09. -/
def intForm (word : BitVec 32) (cond : Cond) (legal : Bool) (writes : List Reg) : Form :=
  { word := word, cond := cond, legal := legal, rptOk := true, writes := writes }

/-- A register-format ALU instruction (R99). -/
def aluReg (c : CoreId) (cond : Cond) (w : Wf) (gd ga gb : Reg) (fn : BitVec 5) (writes traps : Bool)
    (op : Nat → Nat → Nat → BitVec 32 → IntOut) (s : State) : Host.Outcome State Fault Refusal :=
  let n := widthOf w
  issue c (intForm (regWord cond 0x00 gd ga gb w fn) cond (w != 3) (if writes then [gd] else []))
    (aluBody c n (if writes then some gd else none) traps fun k =>
      op n (lowBits n (k.reg ga).val) (lowBits n (k.reg gb).val) k.x.status) s

/-- An immediate-format ALU instruction (R101). -/
def aluImm (c : CoreId) (cond : Cond) (w : Wf) (gd ga : Reg) (imm : BitVec 10) (op6 : BitVec 6) (writes traps : Bool)
    (op : Nat → Nat → Nat → IntOut) (s : State) : Host.Outcome State Fault Refusal :=
  let n := widthOf w
  issue c { intForm (immFmt cond op6 gd ga w imm) cond (w != 3) (if writes then [gd] else []) with ext := .imm }
    (aluBody c n (if writes then some gd else none) traps fun k =>
      op n (lowBits n (k.reg ga).val) (lowBits n (immWord k imm))) s

/-- A shift-immediate instruction (R102). -/
def aluShift (c : CoreId) (cond : Cond) (w : Wf) (gd ga : Reg) (amt : BitVec 7) (kind : BitVec 3) (op : Shift)
    (s : State) : Host.Outcome State Fault Refusal :=
  let n := widthOf w
  issue c (intForm (shiftFmt cond gd ga w kind amt) cond (w != 3) [gd])
    (aluBody c n (some gd) false fun k => shiftOut op n (lowBits n (k.reg ga).val) amt.toNat) s

/-- R102: the amount of a register-format shift, gb[7:0]. -/
def shiftReg (c : CoreId) (cond : Cond) (w : Wf) (gd ga gb : Reg) (fn : BitVec 5) (op : Shift) (s : State) :
    Host.Outcome State Fault Refusal :=
  let n := widthOf w
  issue c (intForm (regWord cond 0x00 gd ga gb w fn) cond (w != 3) [gd])
    (aluBody c n (some gd) false fun k =>
      shiftOut op n (lowBits n (k.reg ga).val) ((k.reg gb).val.toNat % 256)) s

/-! ## Register forms (R99) -/

/-- ADD (R99, R100). -/
def execAdd (c : CoreId) (cond : Cond) (w : Wf) (gd ga gb : Reg) (s : State) : Host.Outcome State Fault Refusal :=
  aluReg c cond w gd ga gb 0 true true (fun n a b _ => addOut n a b 0) s

/-- SUB (R99, R100). -/
def execSub (c : CoreId) (cond : Cond) (w : Wf) (gd ga gb : Reg) (s : State) : Host.Outcome State Fault Refusal :=
  aluReg c cond w gd ga gb 1 true true (fun n a b _ => subOut n a b 0) s

/-- ADC (R99, R100). -/
def execAdc (c : CoreId) (cond : Cond) (w : Wf) (gd ga gb : Reg) (s : State) : Host.Outcome State Fault Refusal :=
  aluReg c cond w gd ga gb 2 true true (fun n a b st => addOut n a b (if st.getLsbD 2 then 1 else 0)) s

/-- SBC (R99, R100). -/
def execSbc (c : CoreId) (cond : Cond) (w : Wf) (gd ga gb : Reg) (s : State) : Host.Outcome State Fault Refusal :=
  aluReg c cond w gd ga gb 3 true true (fun n a b st => subOut n a b (if st.getLsbD 2 then 0 else 1)) s

/-- NEG (R99, R104). -/
def execNeg (c : CoreId) (cond : Cond) (w : Wf) (gd gb : Reg) (s : State) : Host.Outcome State Fault Refusal :=
  aluReg c cond w gd 0 gb 4 true true (fun n _ b _ => subOut n 0 b 0) s

/-- AND (R99). -/
def execAnd (c : CoreId) (cond : Cond) (w : Wf) (gd ga gb : Reg) (s : State) : Host.Outcome State Fault Refusal :=
  aluReg c cond w gd ga gb 5 true false (fun n a b _ => logicOut n (a &&& b)) s

/-- OR (R99). -/
def execOr (c : CoreId) (cond : Cond) (w : Wf) (gd ga gb : Reg) (s : State) : Host.Outcome State Fault Refusal :=
  aluReg c cond w gd ga gb 6 true false (fun n a b _ => logicOut n (a ||| b)) s

/-- XOR (R99). -/
def execXor (c : CoreId) (cond : Cond) (w : Wf) (gd ga gb : Reg) (s : State) : Host.Outcome State Fault Refusal :=
  aluReg c cond w gd ga gb 7 true false (fun n a b _ => logicOut n (a ^^^ b)) s

/-- ANDN (R99). -/
def execAndn (c : CoreId) (cond : Cond) (w : Wf) (gd ga gb : Reg) (s : State) : Host.Outcome State Fault Refusal :=
  aluReg c cond w gd ga gb 8 true false (fun n a b _ => logicOut n (a &&& (2 ^ n - 1 - b))) s

/-- CMP (R99). -/
def execCmp (c : CoreId) (cond : Cond) (w : Wf) (ga gb : Reg) (s : State) : Host.Outcome State Fault Refusal :=
  aluReg c cond w 0 ga gb 9 false false (fun n a b _ => subOut n a b 0) s

/-- TST (R99). -/
def execTst (c : CoreId) (cond : Cond) (w : Wf) (ga gb : Reg) (s : State) : Host.Outcome State Fault Refusal :=
  aluReg c cond w 0 ga gb 10 false false (fun n a b _ => logicOut n (a &&& b)) s

/-- SLL (R102). -/
def execSll (c : CoreId) (cond : Cond) (w : Wf) (gd ga gb : Reg) (s : State) : Host.Outcome State Fault Refusal :=
  shiftReg c cond w gd ga gb 11 .sll s

/-- SRL (R102). -/
def execSrl (c : CoreId) (cond : Cond) (w : Wf) (gd ga gb : Reg) (s : State) : Host.Outcome State Fault Refusal :=
  shiftReg c cond w gd ga gb 12 .srl s

/-- SRA (R102). -/
def execSra (c : CoreId) (cond : Cond) (w : Wf) (gd ga gb : Reg) (s : State) : Host.Outcome State Fault Refusal :=
  shiftReg c cond w gd ga gb 13 .sra s

/-- ROL (R102). -/
def execRol (c : CoreId) (cond : Cond) (w : Wf) (gd ga gb : Reg) (s : State) : Host.Outcome State Fault Refusal :=
  shiftReg c cond w gd ga gb 14 .rol s

/-- ROR (R102). -/
def execRor (c : CoreId) (cond : Cond) (w : Wf) (gd ga gb : Reg) (s : State) : Host.Outcome State Fault Refusal :=
  shiftReg c cond w gd ga gb 15 .ror s

/-- CLZ (R99). -/
def execClz (c : CoreId) (cond : Cond) (w : Wf) (gd ga : Reg) (s : State) : Host.Outcome State Fault Refusal :=
  aluReg c cond w gd ga 0 16 true false (fun n a _ _ => countOut (leadingZeros n a)) s

/-- POPC (R99). -/
def execPopc (c : CoreId) (cond : Cond) (w : Wf) (gd ga : Reg) (s : State) : Host.Outcome State Fault Refusal :=
  aluReg c cond w gd ga 0 17 true false (fun n a _ _ => countOut (popCount n a)) s

/-! ## Immediate forms (R101, R102) -/

/-- ADDI (R101). -/
def execAddi (c : CoreId) (cond : Cond) (w : Wf) (gd ga : Reg) (imm : BitVec 10) (s : State) :
    Host.Outcome State Fault Refusal :=
  aluImm c cond w gd ga imm 0x01 true true (fun n a b => addOut n a b 0) s

/-- SUBI (R101). -/
def execSubi (c : CoreId) (cond : Cond) (w : Wf) (gd ga : Reg) (imm : BitVec 10) (s : State) :
    Host.Outcome State Fault Refusal :=
  aluImm c cond w gd ga imm 0x02 true true (fun n a b => subOut n a b 0) s

/-- ANDI (R101). -/
def execAndi (c : CoreId) (cond : Cond) (w : Wf) (gd ga : Reg) (imm : BitVec 10) (s : State) :
    Host.Outcome State Fault Refusal :=
  aluImm c cond w gd ga imm 0x03 true false (fun n a b => logicOut n (a &&& b)) s

/-- ORI (R101). -/
def execOri (c : CoreId) (cond : Cond) (w : Wf) (gd ga : Reg) (imm : BitVec 10) (s : State) :
    Host.Outcome State Fault Refusal :=
  aluImm c cond w gd ga imm 0x04 true false (fun n a b => logicOut n (a ||| b)) s

/-- XORI (R101). -/
def execXori (c : CoreId) (cond : Cond) (w : Wf) (gd ga : Reg) (imm : BitVec 10) (s : State) :
    Host.Outcome State Fault Refusal :=
  aluImm c cond w gd ga imm 0x05 true false (fun n a b => logicOut n (a ^^^ b)) s

/-- CMPI (R101). -/
def execCmpi (c : CoreId) (cond : Cond) (w : Wf) (ga : Reg) (imm : BitVec 10) (s : State) :
    Host.Outcome State Fault Refusal :=
  aluImm c cond w 0 ga imm 0x06 false false (fun n a b => subOut n a b 0) s

/-- SLLI (R102). -/
def execSlli (c : CoreId) (cond : Cond) (w : Wf) (gd ga : Reg) (amt : BitVec 7) (s : State) :
    Host.Outcome State Fault Refusal :=
  aluShift c cond w gd ga amt 0 .sll s

/-- SRLI (R102). -/
def execSrli (c : CoreId) (cond : Cond) (w : Wf) (gd ga : Reg) (amt : BitVec 7) (s : State) :
    Host.Outcome State Fault Refusal :=
  aluShift c cond w gd ga amt 1 .srl s

/-- SRAI (R102). -/
def execSrai (c : CoreId) (cond : Cond) (w : Wf) (gd ga : Reg) (amt : BitVec 7) (s : State) :
    Host.Outcome State Fault Refusal :=
  aluShift c cond w gd ga amt 2 .sra s

/-- ROLI (R102). -/
def execRoli (c : CoreId) (cond : Cond) (w : Wf) (gd ga : Reg) (amt : BitVec 7) (s : State) :
    Host.Outcome State Fault Refusal :=
  aluShift c cond w gd ga amt 3 .rol s

/-- RORI (R102). -/
def execRori (c : CoreId) (cond : Cond) (w : Wf) (gd ga : Reg) (amt : BitVec 7) (s : State) :
    Host.Outcome State Fault Refusal :=
  aluShift c cond w gd ga amt 4 .ror s

/-! ## Multiplication (R105, R106) -/

/-- R106, R58: issue cost and result distance of a multiply at n bits. -/
def mulTiming (lean : Bool) (n : Nat) (sgn : Bool) (b : Nat) : Nat × Nat :=
  if lean then
    let m := 2 + cdiv (sigBits n sgn b) 16
    (m, m)
  else (1, if n = 128 then 3 else 2)

/-- A multiply: its result and flags at the distance of R106; `traps` as for the ALU. -/
def mulBody (c : CoreId) (n : Nat) (gd ga gb : Reg) (sgn traps : Bool) (out : Nat → Nat → IntOut) (t : Nat) (s : State) :
    Body :=
  let k := s.core c
  let b := lowBits n (k.reg gb).val
  let o := out (lowBits n (k.reg ga).val) b
  let (cost, dist) := mulTiming s.lean n sgn b
  let s := writeInt c (t + dist) n (some gd) o s
  let s := causeIf (traps && stOE k.x.status && o.vals.getLsbD 3) c cIntOverflow s
  .done (if traps then paCost k cost else cost) s

/-- MUL (R105). -/
def execMul (c : CoreId) (cond : Cond) (w : Wf) (gd ga gb : Reg) (s : State) : Host.Outcome State Fault Refusal :=
  issue c (intForm (regWord cond 0x08 gd ga gb w 0) cond (w != 3) [gd])
    (mulBody c (widthOf w) gd ga gb true true (mulOut (widthOf w) true)) s

/-- MULU (R105). -/
def execMulu (c : CoreId) (cond : Cond) (w : Wf) (gd ga gb : Reg) (s : State) : Host.Outcome State Fault Refusal :=
  issue c (intForm (regWord cond 0x08 gd ga gb w 1) cond (w != 3) [gd])
    (mulBody c (widthOf w) gd ga gb false true (mulOut (widthOf w) false)) s

/-- MULH (R105). -/
def execMulh (c : CoreId) (cond : Cond) (w : Wf) (gd ga gb : Reg) (s : State) : Host.Outcome State Fault Refusal :=
  issue c (intForm (regWord cond 0x08 gd ga gb w 2) cond (w == 2) [gd])
    (mulBody c 128 gd ga gb true false (mulHighOut true)) s

/-- MULHU (R105). -/
def execMulhu (c : CoreId) (cond : Cond) (w : Wf) (gd ga gb : Reg) (s : State) : Host.Outcome State Fault Refusal :=
  issue c (intForm (regWord cond 0x08 gd ga gb w 3) cond (w == 2) [gd])
    (mulBody c 128 gd ga gb false false (mulHighOut false)) s

/-! ## Division (R104, R105, R107) -/

/-- The count of a division at n bits (R107). -/
def divCost (n : Nat) : Nat := if n = 128 then 26 else if n = 64 then 14 else 10

/-- A division or remainder: V, the causes of R103 and R104, and the result at the end of its count. -/
def divBody (c : CoreId) (n : Nat) (gd ga gb : Reg) (sgn rem : Bool) (t : Nat) (s : State) : Body :=
  let k := s.core c
  let b := lowBits n (k.reg gb).val
  let o := divOut n sgn rem (lowBits n (k.reg ga).val) b
  let s := writeInt c (t + divCost n) n (some gd) o s
  let s := if b = 0 then causeIf (stDZE k.x.status) c cIntDivzero s
           else causeIf (stOE k.x.status && o.vals.getLsbD 3) c cIntOverflow s
  .done (paCost k (divCost n)) s

/-- A division of opcode 0x08 (R107, R110, R69). -/
def divIssue (c : CoreId) (cond : Cond) (w : Wf) (gd ga gb : Reg) (fn : BitVec 5) (sgn rem : Bool) (s : State) :
    Host.Outcome State Fault Refusal :=
  issue c { intForm (regWord cond 0x08 gd ga gb w fn) cond (w != 3 && !stepDue s c) [gd] with banned := true }
    (divBody c (widthOf w) gd ga gb sgn rem) s

/-- DIV (R105). -/
def execDiv (c : CoreId) (cond : Cond) (w : Wf) (gd ga gb : Reg) (s : State) : Host.Outcome State Fault Refusal :=
  divIssue c cond w gd ga gb 4 true false s

/-- DIVU (R105). -/
def execDivu (c : CoreId) (cond : Cond) (w : Wf) (gd ga gb : Reg) (s : State) : Host.Outcome State Fault Refusal :=
  divIssue c cond w gd ga gb 5 false false s

/-- REM (R105). -/
def execRem (c : CoreId) (cond : Cond) (w : Wf) (gd ga gb : Reg) (s : State) : Host.Outcome State Fault Refusal :=
  divIssue c cond w gd ga gb 6 true true s

/-- REMU (R105). -/
def execRemu (c : CoreId) (cond : Cond) (w : Wf) (gd ga gb : Reg) (s : State) : Host.Outcome State Fault Refusal :=
  divIssue c cond w gd ga gb 7 false true s

/-! ## Division steps (R111, R112) -/

/-- Both registers of a pair written with the sign fill of R22. -/
def writePair (c : CoreId) (due n : Nat) (gd : Reg) (p : Nat × Nat) (s : State) : State :=
  pushReg c due (pairReg gd) (signFill n p.2) (pushReg c due gd (signFill n p.1) s)

/-- The form of a division step. -/
def stepForm (cond : Cond) (w : Wf) (gd ga gb : Reg) (fn : BitVec 5) : Form :=
  intForm (regWord cond 0x09 gd ga gb w fn) cond (w != 3 && pairOk gd) [gd, pairReg gd]

/-- DSTEPS (R112). -/
def execDsteps (c : CoreId) (cond : Cond) (w : Wf) (gd ga gb : Reg) (s : State) : Host.Outcome State Fault Refusal :=
  let n := widthOf w
  issue c (stepForm cond w gd ga gb 0) (fun t s =>
    let k := s.core c
    let a := lowBits n (k.reg ga).val
    let b := lowBits n (k.reg gb).val
    let an := a.testBit (n - 1)
    let bz := decide (b = 0)
    let ov := decide (a = 2 ^ (n - 1)) && decide (b = 2 ^ n - 1)
    let s := writePair c (t + 1) n gd (0, magnitude n a) s
    let s := pushFlags c (t + 1) 15 (flag fN an ||| flag fC (an != b.testBit (n - 1)) ||| flag fZ bz ||| flag fV (bz || ov)) s
    let s := if bz then causeIf (stDZE k.x.status) c cIntDivzero s else causeIf (ov && stOE k.x.status) c cIntOverflow s
    .done (paCost k 1) s) s

/-- DSTEPSU (R112). -/
def execDstepsu (c : CoreId) (cond : Cond) (w : Wf) (gd ga gb : Reg) (s : State) : Host.Outcome State Fault Refusal :=
  let n := widthOf w
  issue c (stepForm cond w gd ga gb 1) (fun t s =>
    let k := s.core c
    let bz := decide (lowBits n (k.reg gb).val = 0)
    let s := writePair c (t + 1) n gd (0, lowBits n (k.reg ga).val) s
    let s := pushFlags c (t + 1) 15 (flag fZ bz ||| flag fV bz) s
    .done (paCost k 1) (causeIf (bz && stDZE k.x.status) c cIntDivzero s)) s

/-- The pair that gd names, at n bits. -/
def readPair (k : Core) (n : Nat) (gd : Reg) : Nat × Nat :=
  (lowBits n (k.reg gd).val, lowBits n (k.reg (pairReg gd)).val)

/-- DSTEP and DSTEPU: two trials (R112). -/
def divStepBody (c : CoreId) (n : Nat) (gd gb : Reg) (sgn : Bool) (t : Nat) (s : State) : Body :=
  let k := s.core c
  let b := lowBits n (k.reg gb).val
  let dv := if sgn then magnitude n b else b
  .done 1 (writePair c (t + 1) n gd (divTrial n dv (divTrial n dv (readPair k n gd))) s)

/-- DSTEP (R112). -/
def execDstep (c : CoreId) (cond : Cond) (w : Wf) (gd gb : Reg) (s : State) : Host.Outcome State Fault Refusal :=
  issue c (stepForm cond w gd 0 gb 2) (divStepBody c (widthOf w) gd gb true) s

/-- DSTEPU (R112). -/
def execDstepu (c : CoreId) (cond : Cond) (w : Wf) (gd gb : Reg) (s : State) : Host.Outcome State Fault Refusal :=
  issue c (stepForm cond w gd 0 gb 3) (divStepBody c (widthOf w) gd gb false) s

/-- DSTEPF (R112). -/
def execDstepf (c : CoreId) (cond : Cond) (w : Wf) (gd : Reg) (s : State) : Host.Outcome State Fault Refusal :=
  let n := widthOf w
  issue c (stepForm cond w gd 0 0 4) (fun t s =>
    let k := s.core c
    .done 1 (writePair c (t + 1) n gd (divFinish n k.x.status (readPair k n gd)) s)) s

end Sys2Proof.Machine
end

