-- ==== Sys2Proof/Machine/Decimal.lean ====
section
/-! DEFINITION. The decimal instructions: register forms, the decimal shift and the memory forms (R127-R148). -/
namespace Sys2Proof.Machine

/-! ## Register forms -/

/-- A decimal register instruction of a fixed count; `traps` tells whether it lists a cause (R137, R147). -/
def decBody (c : CoreId) (gd : Reg) (cost : Nat) (traps : Bool) (out : Core → DecOut) (t : Nat) (s : State) : Body :=
  let k := s.core c
  let o := out k
  .done (if traps then paCost k cost else cost) (decCause c o (writeDec c (t + cost) gd o s))

/-- The form of a decimal instruction of opcodes 0x28 and 0x29. -/
def decForm (word : BitVec 32) (cond : Cond) (legal : Bool) (writes : List Reg) : Form :=
  { word := word, cond := cond, legal := legal, banned := true, rptOk := true, writes := writes }

/-- A two-operand decimal function over registers, invalid operands refused (R130). -/
def onPair (ga gb : Reg) (f : BitVec 32 → Dec → Dec → DecOut) (k : Core) : DecOut :=
  match decRead (k.reg ga).val, decRead (k.reg gb).val with
  | some a, some b => f k.regs.dctl a b
  | _, _ => decInvalid

/-- A one-operand decimal function over a register, an invalid operand refused (R130). -/
def onOne (ga : Reg) (f : BitVec 32 → Dec → DecOut) (k : Core) : DecOut :=
  match decRead (k.reg ga).val with
  | some a => f k.regs.dctl a
  | none => decInvalid

/-- DADD (R137). -/
def execDadd (c : CoreId) (cond : Cond) (gd ga gb : Reg) (s : State) : Host.Outcome State Fault Refusal :=
  issue c (decForm (regWord cond 0x28 gd ga gb 0 0) cond true [gd])
    (decBody c gd 3 true (onPair ga gb fun d a b => decAdd (dcKZ d) a b)) s

/-- DSUB (R137). -/
def execDsub (c : CoreId) (cond : Cond) (gd ga gb : Reg) (s : State) : Host.Outcome State Fault Refusal :=
  issue c (decForm (regWord cond 0x28 gd ga gb 0 1) cond true [gd])
    (decBody c gd 3 true (onPair ga gb fun d a b => decAdd (dcKZ d) a b.neg)) s

/-- DMUL (R137). -/
def execDmul (c : CoreId) (cond : Cond) (gd ga gb : Reg) (s : State) : Host.Outcome State Fault Refusal :=
  issue c (decForm (regWord cond 0x28 gd ga gb 0 2) cond true [gd])
    (decBody c gd 18 true (onPair ga gb fun d a b => decMul (dcKZ d) a b)) s

/-- DDIV (R138, R129). -/
def execDdiv (c : CoreId) (cond : Cond) (gd ga gb : Reg) (s : State) : Host.Outcome State Fault Refusal :=
  issue c (decForm (regWord cond 0x28 gd ga gb 0 3) cond (pairOk gd) [gd, pairReg gd])
    (decBody c gd 140 true (onPair ga gb fun d a b => decDiv (dcKZ d) (dcRM d) a b)) s

/-- DCMP (R137). -/
def execDcmp (c : CoreId) (cond : Cond) (ga gb : Reg) (s : State) : Host.Outcome State Fault Refusal :=
  issue c (decForm (regWord cond 0x28 0 ga gb 0 4) cond true [])
    (decBody c 0 2 true (onPair ga gb fun _ a b => decCmp a b)) s

/-- DTST (R137). -/
def execDtst (c : CoreId) (cond : Cond) (ga : Reg) (s : State) : Host.Outcome State Fault Refusal :=
  issue c (decForm (regWord cond 0x28 0 ga 0 0 5) cond true [])
    (decBody c 0 2 false fun k => decTst (decRead (k.reg ga).val)) s

/-- DCVB (R140). -/
def execDcvb (c : CoreId) (cond : Cond) (w : Wf) (gd ga : Reg) (s : State) : Host.Outcome State Fault Refusal :=
  issue c (decForm (regWord cond 0x28 gd ga 0 w 6) cond (w != 3) [gd])
    (decBody c gd 12 true (onOne ga fun _ a => decToBin (widthOf w) a)) s

/-- DCVD (R140). -/
def execDcvd (c : CoreId) (cond : Cond) (w : Wf) (gd ga : Reg) (s : State) : Host.Outcome State Fault Refusal :=
  issue c (decForm (regWord cond 0x28 gd ga 0 w 7) cond (w != 3) [gd])
    (decBody c gd 16 true fun k => binToDec (dcKZ k.regs.dctl) (widthOf w) (k.reg ga).val.toNat) s

/-- R139: the rounding mode that RMO selects. -/
def modeOf (rmo : BitVec 3) (dctl : BitVec 32) : Nat := if rmo = 0 then dcRM dctl else rmo.toNat - 1

/-- DSRR (R139, R129). -/
def execDsrr (c : CoreId) (cond : Cond) (gd ga : Reg) (sh : BitVec 6) (rmo : BitVec 3) (s : State) :
    Host.Outcome State Fault Refusal :=
  issue c (decForm (rawFmt cond 0x29 (rf gd ++ rf ga ++ sh ++ rmo ++ (0 : BitVec 3))) cond (sh != 32 && rmo != 7) [gd])
    (decBody c gd 4 true (onOne ga fun d a => decShift (dcKZ d) (modeOf rmo d) sh.toInt a)) s

/-! ## Memory forms (R141-R144) -/

/-- The cost of a reading form beyond the distance of its last read (R144). -/
def DecKind.extra : DecKind → Nat
  | .dld => 0
  | .dadd => 3
  | .dsub => 3
  | .pack => 2

/-- The address, length and cycle of each read of a field (R144). -/
def fieldReads (ea n t : Nat) : List (Nat × Nat × Nat) :=
  if n ≤ 16 then [(ea, n, t)] else [(ea, 16, t), (ea + 16, n - 16, t + 1)]

/-- A global field: its requests, and the load that completes with the instruction (R144). -/
def sendField (c : CoreId) (t cost a n : Nat) (d : DecLoad) (key : BitVec 4) (base : Bool) (s : State) : State :=
  let (lid, s) := takeId c s
  let (seq, s) := takeSeq c s
  let twin := isOdd s c
  let s := s.modMs c fun m =>
    { m with gloads := m.gloads ++ [{ lid := lid, seq := seq, due := t + cost, dest := .dec d, data := List.replicate n 0,
                                      tag := false, bad := none, twin := twin }] }
  if twin then s
  else
    (fieldReads a n t).foldl (fun s (b, len, x) =>
      (accessParts c b len x).foldl (fun s (p, y, k) => sendReq c 0 p y key base (.load lid (y - a) k) s) s) s

/-- The cycle by which the later read of a field has come: what the count of a reading form builds on (R144). -/
def fieldDone (r : Option Region) (ea n t : Nat) : Nat :=
  match (fieldReads ea n t).getLast? with
  | some (a, len, x) =>
    x + (match r with | some y => if y.outside then (if splits a len then 106 else 104) else 4 | none => 4)
  | none => t

/-- A local field: its parts are read in E1 and in the cycle after it (R144). -/
def readLocalField (c : CoreId) (t due ea n : Nat) (r : Option Region) (d : DecLoad) (s : State) : State :=
  let rs := fieldReads ea n t
  match r with
  | some (.lis x) => sendLocal c t (.dec d) due (rs.map fun (b, len, _) => (x + (b - ea), List.replicate len none)) none s
  | _ =>
    let ms := (s.core c).ms
    sendLocal c t (.dec d) due (rs.map fun (b, len, _) => (ldsBase c + b, forwarded ms t b len)) none (usePort c t rs.length s)

/-- DLD, DADDM, DSUBM and PACK (R142, R144). -/
def decLoadBody (c : CoreId) (kind : DecKind) (gd gb : Reg) (off : Addr) (n : Nat) (t : Nat) (s : State) : Body :=
  let k := s.core c
  let a := authOf s c gb off
  let r := regionOf c a.ea n
  let out := match r with | some y => y.outside | none => false
  let needs : Needs :=
    { region := r, reads := match r with | some (.lds _) => (fieldReads a.ea n t).map fun (b, len, _) => (b, len) | _ => [],
      globals := if out then (fieldReads a.ea n t).length else 0, room := 0, order := true }
  heldOr c t needs s
    (match accessFault s c a n .load with
     | some q => .trap q 0 s
     | none =>
       let s := checkKeys c a n s
       let cost := fieldDone r a.ea n t + kind.extra - t
       let d : DecLoad :=
         { kind := kind, gd := gd, a := (k.reg gd).val, dctl := k.regs.dctl, slot := k.seq.slot, pa := stPA k.x.status, pc := k.pc }
       let total := match kind with | .dld => cost | _ => paCost k cost
       if out then .done total (sendField c t cost a.ea n d (capKey a.cap.val) k.atBase s)
       else .done total (readLocalField c t (t + cost) a.ea n r d s))

/-- The word of a decimal memory form (R128). -/
def decMemFmt (cond : Cond) (op : BitVec 6) (g gb : Reg) (lm1 : BitVec 4) (off : BitVec 8) : BitVec 32 :=
  rawFmt cond op (rf g ++ rf gb ++ lm1 ++ off)

/-- The word of a zoned memory form (R128). -/
def zonedFmt (cond : Cond) (op : BitVec 6) (g gb : Reg) (nm1 : BitVec 5) (off : BitVec 7) : BitVec 32 :=
  rawFmt cond op (rf g ++ rf gb ++ nm1 ++ off)

/-- DLD (R142). -/
def execDld (c : CoreId) (cond : Cond) (g gb : Reg) (lm1 : BitVec 4) (off : BitVec 8) (s : State) :
    Host.Outcome State Fault Refusal :=
  issue c { word := decMemFmt cond 0x2C g gb lm1 off, cond := cond, banned := true }
    (decLoadBody c .dld g gb (BitVec.signExtend 52 off) (lm1.toNat + 1)) s

/-- DADDM (R142). -/
def execDaddm (c : CoreId) (cond : Cond) (g gb : Reg) (lm1 : BitVec 4) (off : BitVec 8) (s : State) :
    Host.Outcome State Fault Refusal :=
  issue c { word := decMemFmt cond 0x2E g gb lm1 off, cond := cond, banned := true }
    (decLoadBody c .dadd g gb (BitVec.signExtend 52 off) (lm1.toNat + 1)) s

/-- DSUBM (R142). -/
def execDsubm (c : CoreId) (cond : Cond) (g gb : Reg) (lm1 : BitVec 4) (off : BitVec 8) (s : State) :
    Host.Outcome State Fault Refusal :=
  issue c { word := decMemFmt cond 0x2F g gb lm1 off, cond := cond, banned := true }
    (decLoadBody c .dsub g gb (BitVec.signExtend 52 off) (lm1.toNat + 1)) s

/-- PACK (R142, R129). -/
def execPack (c : CoreId) (cond : Cond) (g gb : Reg) (nm1 : BitVec 5) (off : BitVec 7) (s : State) :
    Host.Outcome State Fault Refusal :=
  issue c { word := zonedFmt cond 0x2A g gb nm1 off, cond := cond, banned := true, legal := nm1 != 31 }
    (decLoadBody c .pack g gb (BitVec.signExtend 52 off) (nm1.toNat + 1)) s

/-- The holds of a writing decimal form (R144). -/
def decStoreNeeds (c : CoreId) (ea n room : Nat) : Needs :=
  { storeNeeds c ea n with order := true, room := (match regionOf c ea n with | some (.lds _) => room | _ => 0) }

/-- DST (R142, R144). -/
def execDst (c : CoreId) (cond : Cond) (g gb : Reg) (lm1 : BitVec 4) (off : BitVec 8) (s : State) :
    Host.Outcome State Fault Refusal :=
  issue c { word := decMemFmt cond 0x2D g gb lm1 off, cond := cond, banned := true } (fun t s =>
    let n := lm1.toNat + 1
    let a := authOf s c gb (BitVec.signExtend 52 off)
    heldOr c t (decStoreNeeds c a.ea n 1) s
      (match accessFault s c a n .store with
       | some q => .trap q 0 s
       | none => .done 1 (doStore c t a (decBytes ((s.core c).reg g).val n) none (checkKeys c a n s)))) s

/-- The bytes of UNPK enter in one or two writes, in t + 2 and t + 3 (R144). -/
def storeField (c : CoreId) (t : Nat) (a : Auth) (bs : List Byte) (s : State) : State :=
  let write (x : Nat) (a : Auth) (bs : List Byte) (s : State) : State :=
    match regionOf c a.ea bs.length with
    | some (.lis at_) => schedule c x 1 (.put at_ bs none) s
    | _ => doStore c x a bs none s
  let s := write (t + 2) a (bs.take 16) s
  if bs.length ≤ 16 then s else write (t + 3) { a with ea := a.ea + 16 } (bs.drop 16) s

/-- UNPK (R142, R143, R144). -/
def execUnpk (c : CoreId) (cond : Cond) (g gb : Reg) (nm1 : BitVec 5) (off : BitVec 7) (s : State) :
    Host.Outcome State Fault Refusal :=
  issue c { word := zonedFmt cond 0x2B g gb nm1 off, cond := cond, banned := true, legal := nm1 != 31 } (fun t s =>
    let n := nm1.toNat + 1
    let k := s.core c
    let a := authOf s c gb (BitVec.signExtend 52 off)
    let cost := if n ≤ 16 then 3 else 4
    heldOr c t (decStoreNeeds c a.ea n 2) s
      (match accessFault s c a n .store with
       | some q => .trap q 0 s
       | none =>
         match decRead (k.reg g).val with
         | none => .done (paCost k cost) (decCause c decInvalid (writeDec c (t + cost) 0 decInvalid s))
         | some d =>
           let s := checkKeys c a n s
           let (bs, o) := decUnpack (dcKZ k.regs.dctl) n d
           .done (paCost k cost) (decCause c o (writeDec c (t + cost) 0 o (storeField c t a bs s))))) s

end Sys2Proof.Machine
end

