-- ==== Sys2Proof/Machine/Strings.lean ====
section
/-! DEFINITION. The string, translate and edit instructions as they issue (R151-R156, R168): their checks, and the work that they begin;
what they do follows as its cycles come. -/
namespace Sys2Proof.Machine

/-! ## Operands and checks (R152-R156) -/

/-- The word of a string instruction (R151). -/
def strFmt (cond : Cond) (op : BitVec 6) (gd ga gb : Reg) (mode : BitVec 2) (fn : BitVec 5) : BitVec 32 :=
  rawFmt cond op (rf gd ++ rf ga ++ rf gb ++ mode ++ fn)

/-- R152: no two of three registers are the same, but for gd and ga where `same` allows it. -/
def distinct (gd ga gb : Reg) (same : Bool) : Bool := (same || gd != ga) && gd != gb && ga != gb

/-- The form of a string instruction. -/
def strForm (word : BitVec 32) (cond : Cond) (legal : Bool) : Form :=
  { word := word, cond := cond, legal := legal, banned := true }

/-- Whether n bytes at ea lie in a region that R153 allows. -/
def strRegion (c : CoreId) (glob : Bool) (ea n : Nat) : Bool :=
  match regionOf c ea n with
  | some (.lds _) => true
  | some (.lis _) => true
  | some (.global _) => glob
  | _ => false

/-- R154: the checks of one operand over n bytes; a range of zero bytes is not checked. -/
def strFault (s : State) (c : CoreId) (a : Auth) (n : Nat) (ld st glob : Bool) : Option Trap :=
  let base := (s.core c).atBase
  if n = 0 then none
  else firstTrap [tagSealFault a,
    if ld then permFault base a n .load else none,
    if st then permFault base a n .store else none,
    if inBounds a.cap.val a.ea n && strRegion c glob a.ea n && (base || !overlaps a.ea n framesOff 0x800) then none
    else some (capTrap cBounds a.ea a.reg)]

/-- The job that a string instruction begins with, from the registers as it reads them. -/
def strJob (k : Core) (op : StrOp) (gd ga gb : Reg) (extra : Nat) : StrJob :=
  { op := op, gd := gd, ga := ga, gb := gb, dv := k.reg gd, av := k.reg ga, bv := k.reg gb, ahead := 0, extra := extra, legacy := k.legacy,
    base := k.atBase }

/-- The body of a string instruction: held under R80 and R168, checked, and begun while the store buffer drains. -/
def strBody (c : CoreId) (t : Nat) (q : Option Trap) (go : State → State) (s : State) : Body :=
  if vecMemQueued (s.core c).ms t then .held id
  else match q with
    | some q => .trap q 0 s
    | none => .moved (go (drainAll c t s))

/-- A string instruction that runs from its job issued (R151, R152). -/
def strIssue (c : CoreId) (cond : Cond) (word : BitVec 32) (legal : Bool) (op : StrOp) (gd ga gb : Reg)
    (checks : State → Option Trap) (extra : Core → Nat) (s : State) : Host.Outcome State Fault Refusal :=
  issue c (strForm word cond legal) (fun t s =>
    strBody c t (checks s) (strGo c t true (strJob (s.core c) op gd ga gb (extra (s.core c)))) s) s

/-- COUNT of a register of core c as it reads. -/
def countReg (s : State) (c : CoreId) (r : Reg) : Nat := countOf ((s.core c).reg r)

/-- R154 for MVB and MVBL: the source, then the destination. -/
def moveFault (s : State) (c : CoreId) (gd ga gb : Reg) (glob : Bool) : Option Trap :=
  let n := countOf ((s.core c).reg gb)
  firstTrap [strFault s c (authAt s c ga 0) n true false glob, strFault s c (authAt s c gd 0) n false true glob]

/-- MVB (R157, R158). -/
def execMvb (c : CoreId) (cond : Cond) (gd ga gb : Reg) (s : State) : Host.Outcome State Fault Refusal :=
  strIssue c cond (strFmt cond 0x30 gd ga gb 0 0) (distinct gd ga gb true) .mvb gd ga gb
    (fun s => moveFault s c gd ga gb false) (fun _ => 0) s

/-- CLCB (R159). Where the checks of both operands fail, gd's is reported (DESIGN CHOICE, log entry 98). -/
def execClcb (c : CoreId) (cond : Cond) (gd ga gb : Reg) (s : State) : Host.Outcome State Fault Refusal :=
  strIssue c cond (strFmt cond 0x30 gd ga gb 0 2) (distinct gd ga gb true) .clcb gd ga gb
    (fun s => firstTrap [strFault s c (authAt s c gd 0) (countReg s c gb) true false false,
      strFault s c (authAt s c ga 0) (countReg s c gb) true false false]) (fun _ => 0) s

/-- SCB (R160). -/
def execScb (c : CoreId) (cond : Cond) (gd ga gb : Reg) (s : State) : Host.Outcome State Fault Refusal :=
  strIssue c cond (strFmt cond 0x30 gd ga gb 0 3) (distinct gd ga gb false) .scb gd ga gb
    (fun s => strFault s c (authAt s c gd 0) (countReg s c gb) true false false) (fun _ => 0) s

/-- TRB (R161). -/
def execTrb (c : CoreId) (cond : Cond) (gd ga gb : Reg) (s : State) : Host.Outcome State Fault Refusal :=
  strIssue c cond (strFmt cond 0x31 gd ga gb 0 0) (distinct gd ga gb false) .trb gd ga gb
    (fun s => firstTrap [strFault s c (authAt s c gd 0) (countReg s c gb) true true false,
      strFault s c (authAt s c ga 0) 256 true false false]) (fun _ => 0) s

/-- TRT (R162). -/
def execTrt (c : CoreId) (cond : Cond) (gd ga gb : Reg) (s : State) : Host.Outcome State Fault Refusal :=
  strIssue c cond (strFmt cond 0x31 gd ga gb 0 1) (distinct gd ga gb false) .trt gd ga gb
    (fun s => firstTrap [strFault s c (authAt s c gd 0) (countReg s c gb) true false false,
      strFault s c (authAt s c ga 0) 256 true false false]) (fun _ => 0) s

/-- U8V (R163-R165). -/
def execU8v (c : CoreId) (cond : Cond) (mode : BitVec 2) (gd ga gb : Reg) (s : State) :
    Host.Outcome State Fault Refusal :=
  let legal := mode != 3 && (if mode = 0 then gd == 0 else gd != 0) && distinct gd ga gb false
  strIssue c cond (strFmt cond 0x31 gd ga gb mode 2) legal (.u8v mode) gd ga gb
    (fun s =>
      let n := countReg s c gb
      firstTrap [strFault s c (authAt s c ga 0) n true false false,
        if mode = 0 then none else strFault s c (authAt s c gd 0) (if mode = 1 then n else 2 * n) false true false])
    (fun _ => 0) s

/-- EDB and EDM issued. -/
def editIssue (c : CoreId) (cond : Cond) (fn : BitVec 5) (mark : Bool) (gd ga gb : Reg) (s : State) :
    Host.Outcome State Fault Refusal :=
  strIssue c cond (strFmt cond 0x32 gd ga gb 0 fn) (distinct gd ga gb false) (.edit mark) gd ga gb
    (fun s => strFault s c (authAt s c gd 0) (countReg s c gb) true true false)
    (fun k => if stPA k.x.status then 3 else 0) s

/-- EDB (R182). -/
def execEdb (c : CoreId) (cond : Cond) (gd ga gb : Reg) (s : State) : Host.Outcome State Fault Refusal :=
  editIssue c cond 0 false gd ga gb s

/-- EDM (R182). -/
def execEdm (c : CoreId) (cond : Cond) (gd ga gb : Reg) (s : State) : Host.Outcome State Fault Refusal :=
  editIssue c cond 1 true gd ga gb s

/-- R154 for FLDW: the message over its whole bounded range and over the bytes from ADDR to its end, then the two
tables. -/
def fldwFault (s : State) (c : CoreId) (m d o : Auth) (len : Nat) : Option Trap :=
  let bad := some (capTrap cBounds m.ea m.reg)
  firstTrap [tagSealFault m, permFault (s.core c).atBase m (max len 1) .load,
    (match capBounds m.cap.val with
     | none => bad
     | some b => if strRegion c false b.base (b.top - b.base) then none else bad),
    strFault s c m len true false false, strFault s c d 516 true false false, strFault s c o 516 false true false]

/-- The length of the message of FLDW (R184). -/
def fldwLen (m : Auth) : Nat := match capBounds m.cap.val with | some b => min (b.top - m.ea) 65535 | none => 0

/-- FLDW (R184-R189). -/
def execFldw (c : CoreId) (cond : Cond) (gd ga gb : Reg) (s : State) : Host.Outcome State Fault Refusal :=
  let legal := distinct gd ga gb false && pairOk gd && ga != pairReg gd && gb != pairReg gd && !(s.core c).legacy
  issue c (strForm (strFmt cond 0x33 gd ga gb 0 0) cond legal) (fun t s =>
    let k := s.core c
    let m := authAt s c gd 0
    let len := fldwLen m
    let w := (k.reg (pairReg gd)).val.toNat
    let op : StrOp := .fldw len (field w 24 2) (field w 16 8) (field w 0 16) none
    strBody c t (fldwFault s c m (authAt s c ga 0) (authAt s c gb 0) len) (strGo c t true (strJob k op gd ga gb 0)) s) s

/-- MVBL (R157, R158, R167). -/
def execMvbl (c : CoreId) (cond : Cond) (gd ga gb : Reg) (s : State) : Host.Outcome State Fault Refusal :=
  issue c (strForm (strFmt cond 0x30 gd ga gb 0 1) cond (distinct gd ga gb true)) (fun t s =>
    let d := authAt s c gd 0
    let a := authAt s c ga 0
    let n := countReg s c gb
    strBody c t (moveFault s c gd ga gb true) (fun u =>
      if n ≠ 0 ∧ inGlobal a.ea 1 then mvblLoad c t gd ga gb d a n u
      else
        let op : StrOp := if n ≠ 0 ∧ inGlobal d.ea 1 then .mvblOut (capKey d.cap.val) d.reg else .mvb
        strGo c t true (strJob (s.core c) op gd ga gb 0) u) s) s

/-! ## Block returns (R167, R171, R174) -/

/-- The return of the block that an MVBL waits for; a point that falls into the same cycle comes first (R171, R174). -/
def mvblReturn (c : CoreId) (b : BlockRead) (data : List Byte) (s : State) : State :=
  let next (s : State) : State :=
    match (s.core c).ms.mvbl with
    | none => s
    | some j => mvblNext c b data j (s.modSeq c fun q => { q with str := none })
  if (s.core c).seq.str = some .block ∧ (s.core c).seq.nextIssue = b.sent + 104 then stringPoint c (b.sent + 104) next s
  else next s

end Sys2Proof.Machine
end

