-- ==== Sys2Proof/Machine/Micro.lean ====
section
/-! DEFINITION. XOP routines: the issue of an XOP, the micro-operations, their sequencing, interruption points and the step
counter (R347-R366). One command is one step of the routine that its core runs. -/
namespace Sys2Proof.Machine

/-! ## Operands (R353) -/

/-- Whether an operand code is not reserved. -/
def opndOk (x : MOpnd) : Bool := decide (x.toNat < 0x34)
/-- Whether an operand code is g-coded. -/
def gCoded (x : MOpnd) : Bool := decide (0x10 ≤ x.toNat) && opndOk x
/-- The register after a register, modulo 32 (R353). -/
def nextReg (r : Reg) : Reg := ⟨(r.val + 1) % 32, Nat.mod_lt _ (by omega)⟩

/-- The general register that a g-coded operand names. -/
def opndReg (m : Micro) (x : MOpnd) : Reg :=
  match x.toNat with
  | 0x30 => m.gd
  | 0x31 => m.ga
  | 0x32 => m.gb
  | 0x33 => nextReg m.gd
  | n => ⟨(n - 16) % 32, Nat.mod_lt _ (by omega)⟩

/-- The u register that an operand code below 0x10 names. -/
def opndU (x : MOpnd) : Fin 16 := ⟨x.toNat % 16, Nat.mod_lt _ (by omega)⟩

/-- An operand read in a step (R354). -/
def opndRead (k : Core) (m : Micro) (x : MOpnd) : TWord :=
  if x.toNat < 16 then TWord.plain m.u[opndU x] else k.reg (opndReg m x)

/-- A u register written in a step, visible to the next step; a load of an earlier step that lands there too is older, and the write
stands over it (R60, R354). -/
def Micro.setU (m : Micro) (i : Fin 16) (v : Word) : Micro :=
  { m with u := m.u.set i v, loads := m.loads.filter fun l => !(decide (l.1 ≤ m.steps + 1) && l.2.1 == i) }

/-- A result of the step in cycle t, visible to the next step: the routine and the state with it written (R354). -/
def opndWrite (c : CoreId) (t : Nat) (m : Micro) (x : MOpnd) (v : Word) (s : State) : Micro × State :=
  if x.toNat < 16 then (m.setU (opndU x) v, s) else (m, pushReg c (t + 1) (opndReg m x) v s)

/-! ## Steps (R348, R349) -/

/-- What a step leaves: the routine goes on, a precise cause ends it (R363), or it has ended. -/
inductive StepOut where
  | go (m : Micro) (s : State)
  | trap (q : Trap) (s : State)
  | ended (s : State)

/-- The cycle of the next step (R349). -/
def Micro.cycle (m : Micro) : Nat := m.start + 6 + m.steps

/-- The loads of u registers that are visible in the next step (R357). -/
def Micro.settled (m : Micro) : Micro :=
  let due := m.loads.filter fun l => l.1 ≤ m.steps
  { m with u := due.foldl (fun u l => u.set l.2.1 l.2.2) m.u, loads := m.loads.filter fun l => !(l.1 ≤ m.steps) }

/-- The routine after a step whose next microword lies at an address. -/
def Micro.after (m : Micro) (next : BitVec 15) : Micro := { m with steps := m.steps + 1, watch := m.watch + 1, upc := next }

/-- A routine that ends, with the step state cleared. -/
def endMicro (c : CoreId) (s : State) : State := s.modSeq c fun q => { q with micro := none }

/-- R363: a precise cause ends the routine; it is raised at the boundary in cycle a, once what comes before it there has been taken
(R305, R306). -/
def microTrap (c : CoreId) (a : Nat) (q : Trap) (s : State) : State := trapAt c a q (endMicro c s)

/-- R362: MICRO_WATCHDOG in cycle t; a base cause that comes before it is taken first (R305). -/
def watchdog (c : CoreId) (t : Nat) (m : Micro) (s : State) : State :=
  let k := s.core c
  let s := endMicro c s
  match baseDue c t s with
  | some u => u
  | none => enterBase c t 0x47 (m.upc.setWidth 64 <<< 32) k.pc false k.pc s

/-- The ROM word address that PMATCHk replaces, none where the entry is not active (R367). -/
def patchAddr (v : BitVec 32) : Option Nat := if v.getLsbD 31 then some (v.extractLsb' 16 14).toNat else none

/-- The word address that a fetch from a word address takes its microword from: a patch word where an active entry matches, of two the
one with the lower k (R367). -/
def fetchFrom (s : State) (upc : Nat) : Nat :=
  match s.cfg.pmatch.toList.find? fun v => patchAddr v == some upc with
  | some v => 0x4000 + (v.extractLsb' 0 10).toNat
  | none => upc

/-- R351: an uncorrectable microword raises MACHINE_CHECK in the step that fetches it. The ROM holds no writable word (R350). -/
def microFetch (c : CoreId) (t : Nat) (m : Micro) (s : State) : Option State :=
  let at_ := fetchFrom s m.upc.toNat
  if s.eccBad.isEmpty || decide (at_ < 0x4000) then none
  else
    match eccHit s (csBase c + 4 * (at_ - 0x4000)) 4 with
    | none => none
    | some w =>
      let k := s.core c
      some (enterBase c t 0x41 (1 <<< 32) k.pc false k.pc (endMicro c (recordEcc w s)))

/-- A single-bit error of the microword that a step fetches is corrected and counted (R266, R351). -/
def softWord (c : CoreId) (m : Micro) (s : State) : State :=
  let at_ := fetchFrom s m.upc.toNat
  if s.eccSoft.isEmpty || decide (at_ < 0x4000) then s else softRead (csBase c + 4 * (at_ - 0x4000)) 4 s

/-- The state after a step. -/
def stepDone (c : CoreId) (t : Nat) : StepOut → State
  | .go m s => s.modSeq c fun q => { q with micro := some m }
  | .trap q s => microTrap c (t + 1) q s
  | .ended s => s

/-- One step of the routine that core c runs, in its cycle; `ok` tells whether the microword can stand in a routine (R374). -/
def microStep (c : CoreId) (ok : Bool) (body : Core → Micro → Nat → State → StepOut) (s : State) :
    Host.Outcome State Fault Refusal :=
  match (s.core c).seq.micro with
  | none => .next s
  | some m =>
    if !ok || !runs s c then .next s
    else
      let t := max s.now m.cycle
      let m := { m with start := m.start + (t - m.cycle) }
      let s := (settle t s).modCore c (settleCore false t)
      if 4096 ≤ m.watch then .next (watchdog c t m s)
      else
        match microFetch c t m s with
        | some s => .next s
        | none => .next (stepDone c t (body (s.core c) m.settled t (softWord c m s)))

/-- A step that computes a result and micro-flags and goes on to the next word. -/
def microOp (c : CoreId) (ok : Bool) (d : MOpnd) (f : Core → Micro → Option Word × BitVec 6 × BitVec 6) (s : State) :
    Host.Outcome State Fault Refusal :=
  microStep c (ok && opndOk d) (fun k m t s =>
    let (v, mask, vals) := f k m
    let m := { m with flags := (m.flags &&& ~~~mask) ||| (vals &&& mask) }
    let (m, s) := match v with | some v => opndWrite c t m d v s | none => (m, s)
    .go (m.after (m.upc + 1)) s) s

/-! ## ALU (R356) -/

/-- An ALU function over the values of A and B at width W. -/
def microAlu (c : CoreId) (d a b : MOpnd) (w : Wf) (f : Bool) (op : Nat → Nat → Nat → BitVec 32 → IntOut) (s : State) :
    Host.Outcome State Fault Refusal :=
  microOp c (opndOk a && opndOk b && w != 3) d (fun k m =>
    let n := widthOf w
    let o := op n (lowBits n (opndRead k m a).val) (lowBits n (opndRead k m b).val) (m.flags.setWidth 32)
    (some (signFill n o.d), if f then o.mask else 0, o.vals)) s

/-- MICRO_ADD (R356). -/
def execMicroAdd (c : CoreId) (d a b : MOpnd) (w : Wf) (f : Bool) (s : State) : Host.Outcome State Fault Refusal :=
  microAlu c d a b w f (fun n x y _ => addOut n x y 0) s
/-- MICRO_SUB (R356). -/
def execMicroSub (c : CoreId) (d a b : MOpnd) (w : Wf) (f : Bool) (s : State) : Host.Outcome State Fault Refusal :=
  microAlu c d a b w f (fun n x y _ => subOut n x y 0) s
/-- MICRO_ADC (R356). -/
def execMicroAdc (c : CoreId) (d a b : MOpnd) (w : Wf) (f : Bool) (s : State) : Host.Outcome State Fault Refusal :=
  microAlu c d a b w f (fun n x y st => addOut n x y (if st.getLsbD 2 then 1 else 0)) s
/-- MICRO_SBC (R356). -/
def execMicroSbc (c : CoreId) (d a b : MOpnd) (w : Wf) (f : Bool) (s : State) : Host.Outcome State Fault Refusal :=
  microAlu c d a b w f (fun n x y st => subOut n x y (if st.getLsbD 2 then 0 else 1)) s
/-- MICRO_AND (R356). -/
def execMicroAnd (c : CoreId) (d a b : MOpnd) (w : Wf) (f : Bool) (s : State) : Host.Outcome State Fault Refusal :=
  microAlu c d a b w f (fun n x y _ => logicOut n (x &&& y)) s
/-- MICRO_OR (R356). -/
def execMicroOr (c : CoreId) (d a b : MOpnd) (w : Wf) (f : Bool) (s : State) : Host.Outcome State Fault Refusal :=
  microAlu c d a b w f (fun n x y _ => logicOut n (x ||| y)) s
/-- MICRO_XOR (R356). -/
def execMicroXor (c : CoreId) (d a b : MOpnd) (w : Wf) (f : Bool) (s : State) : Host.Outcome State Fault Refusal :=
  microAlu c d a b w f (fun n x y _ => logicOut n (x ^^^ y)) s
/-- MICRO_ANDN (R356). -/
def execMicroAndn (c : CoreId) (d a b : MOpnd) (w : Wf) (f : Bool) (s : State) : Host.Outcome State Fault Refusal :=
  microAlu c d a b w f (fun n x y _ => logicOut n (x &&& (2 ^ n - 1 - y))) s
/-- MICRO_SLL (R356, R102). -/
def execMicroSll (c : CoreId) (d a b : MOpnd) (w : Wf) (f : Bool) (s : State) : Host.Outcome State Fault Refusal :=
  microAlu c d a b w f (fun n x y _ => shiftOut .sll n x (y % 256)) s
/-- MICRO_SRL (R356, R102). -/
def execMicroSrl (c : CoreId) (d a b : MOpnd) (w : Wf) (f : Bool) (s : State) : Host.Outcome State Fault Refusal :=
  microAlu c d a b w f (fun n x y _ => shiftOut .srl n x (y % 256)) s
/-- MICRO_SRA (R356, R102). -/
def execMicroSra (c : CoreId) (d a b : MOpnd) (w : Wf) (f : Bool) (s : State) : Host.Outcome State Fault Refusal :=
  microAlu c d a b w f (fun n x y _ => shiftOut .sra n x (y % 256)) s
/-- MICRO_ROL (R356, R102). -/
def execMicroRol (c : CoreId) (d a b : MOpnd) (w : Wf) (f : Bool) (s : State) : Host.Outcome State Fault Refusal :=
  microAlu c d a b w f (fun n x y _ => shiftOut .rol n x (y % 256)) s
/-- MICRO_ROR (R356, R102). -/
def execMicroRor (c : CoreId) (d a b : MOpnd) (w : Wf) (f : Bool) (s : State) : Host.Outcome State Fault Refusal :=
  microAlu c d a b w f (fun n x y _ => shiftOut .ror n x (y % 256)) s
/-- MICRO_CLZ (R356). -/
def execMicroClz (c : CoreId) (d a : MOpnd) (w : Wf) (f : Bool) (s : State) : Host.Outcome State Fault Refusal :=
  microAlu c d a 0 w f (fun n x _ _ => countOut (leadingZeros n x)) s
/-- MICRO_POPC (R356). -/
def execMicroPopc (c : CoreId) (d a : MOpnd) (w : Wf) (f : Bool) (s : State) : Host.Outcome State Fault Refusal :=
  microAlu c d a 0 w f (fun n x _ _ => countOut (popCount n x)) s

/-! ## Immediates (R355) -/

/-- An immediate function at 128 bits. -/
def microImm (c : CoreId) (d a : MOpnd) (f : Bool) (imm : BitVec 14) (op : Nat → Nat → IntOut) (s : State) :
    Host.Outcome State Fault Refusal :=
  microOp c (opndOk a) d (fun k m =>
    let o := op (opndRead k m a).val.toNat (imm.signExtend 128).toNat
    (some (BitVec.ofNat 128 o.d), if f then o.mask else 0, o.vals)) s

/-- MICRO_ADDI (R355). -/
def execMicroAddi (c : CoreId) (d a : MOpnd) (f : Bool) (imm : BitVec 14) (s : State) : Host.Outcome State Fault Refusal :=
  microImm c d a f imm (fun x y => addOut 128 x y 0) s
/-- MICRO_ANDI (R355). -/
def execMicroAndi (c : CoreId) (d a : MOpnd) (f : Bool) (imm : BitVec 14) (s : State) : Host.Outcome State Fault Refusal :=
  microImm c d a f imm (fun x y => logicOut 128 (x &&& y)) s
/-- MICRO_ORI (R355). -/
def execMicroOri (c : CoreId) (d a : MOpnd) (f : Bool) (imm : BitVec 14) (s : State) : Host.Outcome State Fault Refusal :=
  microImm c d a f imm (fun x y => logicOut 128 (x ||| y)) s

/-- SHI (R355): IMM14[8:7] the kind, IMM14[6:0] the amount; no micro-flag is written. -/
def execShi (c : CoreId) (d a : MOpnd) (imm : BitVec 14) (s : State) : Host.Outcome State Fault Refusal :=
  microOp c (opndOk a) d (fun k m =>
    let op : Shift := match (imm.extractLsb' 7 2).toNat with | 0 => .sll | 1 => .srl | 2 => .sra | _ => .rol
    (some (BitVec.ofNat 128 (shiftOut op 128 (opndRead k m a).val.toNat (imm.toNat % 128)).d), 0, 0)) s

/-- LIT (R355). -/
def execLit (c : CoreId) (d : MOpnd) (imm : BitVec 14) (s : State) : Host.Outcome State Fault Refusal :=
  microOp c true d (fun _ _ => (some (imm.signExtend 128), 0, 0)) s

/-! ## DEC (R356) -/

/-- The magnitude of a decimal operand; a free value where its digits are invalid (log entry 26). -/
def microMag (w : Word) : Nat :=
  if allDigits 31 (w.toNat / 16) then digitsVal 31 (w.toNat / 16) else Config.invalidMagnitude w % ten31

/-- Whether a decimal operand is minus; a free value where its sign code is none (log entry 26). -/
def microMinus (w : Word) : Bool :=
  if w.toNat % 16 < 10 then Config.invalidMinus w else w.toNat % 16 == 11 || w.toNat % 16 == 13

/-- A word with its 31 digits replaced and its sign nibble kept. -/
def withDigits (w : Word) (digits : Nat) : Word := BitVec.ofNat 128 (digits % 2 ^ 124 * 16 + w.toNat % 16)

/-- DVAL (R356): mDX is always written. -/
def execDval (c : CoreId) (a b : MOpnd) (s : State) : Host.Outcome State Fault Refusal :=
  microOp c (opndOk a && opndOk b) 0x10 (fun k m =>
    (none, fDX, flag fDX ((decRead (opndRead k m a).val).isNone || (decRead (opndRead k m b).val).isNone))) s

/-- DADDX and DSUBX: a sum under R131; an invalid operand sets mDX and leaves D. -/
def microSum (c : CoreId) (d a b : MOpnd) (neg : Bool) (s : State) : Host.Outcome State Fault Refusal :=
  microOp c (opndOk a && opndOk b) d (fun k m =>
    match decRead (opndRead k m a).val, decRead (opndRead k m b).val with
    | some x, some y =>
      let o := decAdd (dcKZ k.regs.dctl) x (if neg then y.neg else y)
      (o.r0, fN ||| fZ ||| fDV, o.vals)
    | _, _ => (none, fDX, fDX)) s

/-- DADDX (R356). -/
def execDaddx (c : CoreId) (d a b : MOpnd) (s : State) : Host.Outcome State Fault Refusal := microSum c d a b false s
/-- DSUBX (R356). -/
def execDsubx (c : CoreId) (d a b : MOpnd) (s : State) : Host.Outcome State Fault Refusal := microSum c d a b true s

/-- DSL1 (R356). -/
def execDsl1 (c : CoreId) (d a : MOpnd) (s : State) : Host.Outcome State Fault Refusal :=
  microOp c (opndOk a) d (fun k m =>
    let w := (opndRead k m a).val
    (some (withDigits w (w.toNat / 16 * 16)), fDV, flag fDV (digitOf w.toNat 30 != 0))) s

/-- DSR1 (R356). -/
def execDsr1 (c : CoreId) (d a : MOpnd) (s : State) : Host.Outcome State Fault Refusal :=
  microOp c (opndOk a) d (fun k m =>
    let w := (opndRead k m a).val
    let x := w.toNat / 256
    (some (withDigits w x), fZ, flag fZ (x == 0))) s

/-- DMD (R356): the exact product by B[3:0]; the sign nibble is kept (log entry 26). -/
def execDmd (c : CoreId) (d a b : MOpnd) (s : State) : Host.Outcome State Fault Refusal :=
  microOp c (opndOk a && opndOk b) d (fun k m =>
    let w := (opndRead k m a).val
    let n := (opndRead k m b).val.toNat % 16
    let x := microMag w * n
    (some (withDigits w (digitsOf 31 (x % ten31))), fDV ||| fDX, flag fDV (decide (ten31 ≤ x)) ||| flag fDX (decide (9 < n)))) s

/-- DCMPM (R356). -/
def execDcmpm (c : CoreId) (a b : MOpnd) (s : State) : Host.Outcome State Fault Refusal :=
  microOp c (opndOk a && opndOk b) 0x10 (fun k m =>
    let x := microMag (opndRead k m a).val
    let y := microMag (opndRead k m b).val
    (none, fN ||| fZ ||| fC, flag fN (decide (x < y)) ||| flag fZ (x == y) ||| flag fC (decide (y ≤ x)))) s

/-- DSGN (R356). -/
def execDsgn (c : CoreId) (d a b : MOpnd) (s : State) : Host.Outcome State Fault Refusal :=
  microOp c (opndOk a && opndOk b) d (fun k m =>
    let w := (opndRead k m a).val
    let zero := w.toNat / 16 == 0
    let minus := (microMinus w != (opndRead k m b).val.getLsbD 0) && (!zero || dcKZ k.regs.dctl)
    (some (BitVec.ofNat 128 (w.toNat / 16 * 16 + (if minus then 13 else 12))), fN ||| fZ, flag fN (minus && !zero) ||| flag fZ zero)) s

/-! ## BYTE (R356) -/

/-- GETB (R356). -/
def execGetb (c : CoreId) (d a b : MOpnd) (s : State) : Host.Outcome State Fault Refusal :=
  microOp c (opndOk a && opndOk b) d (fun k m =>
    let v := field (opndRead k m a).val.toNat (8 * ((opndRead k m b).val.toNat % 16)) 8
    (some (BitVec.ofNat 128 v), fZ, flag fZ (v == 0))) s

/-- PUTB (R356). -/
def execPutb (c : CoreId) (d a b : MOpnd) (s : State) : Host.Outcome State Fault Refusal :=
  microOp c (opndOk a && opndOk b) d (fun k m =>
    (some (putField (opndRead k m d).val (8 * ((opndRead k m b).val.toNat % 16)) ((opndRead k m a).val.setWidth 8 : Byte)), 0, 0)) s

/-- GETN (R356). -/
def execGetn (c : CoreId) (d a b : MOpnd) (s : State) : Host.Outcome State Fault Refusal :=
  microOp c (opndOk a && opndOk b) d (fun k m =>
    let v := field (opndRead k m a).val.toNat (4 * ((opndRead k m b).val.toNat % 32)) 4
    (some (BitVec.ofNat 128 v), fZ, flag fZ (v == 0))) s

/-- PUTN (R356). -/
def execPutn (c : CoreId) (d a b : MOpnd) (s : State) : Host.Outcome State Fault Refusal :=
  microOp c (opndOk a && opndOk b) d (fun k m =>
    (some (putField (opndRead k m d).val (4 * ((opndRead k m b).val.toNat % 32)) ((opndRead k m a).val.setWidth 4 : BitVec 4)), 0, 0)) s

/-! ## SREG (R358) -/

/-- The system registers that SREG accepts (R358). -/
def sregOk (sr : BitVec 6) : Bool := [0x0C, 0x0D, 0x10, 0x11, 0x13].contains sr

/-- SREG (R358, R89). -/
def execSreg (c : CoreId) (d : MOpnd) (sr : BitVec 6) (s : State) : Host.Outcome State Fault Refusal :=
  microStep c (opndOk d && sregOk sr) (fun _ m t s =>
    let v := (sysRead s c sr).val
    let (v, s) := if sr = 0x0C ∨ sr = 0x0D then sharedValue c v s else (v, s)
    let (m, s) := opndWrite c t m d v s
    .go (m.after (m.upc + 1)) s) s

/-! ## Memory (R357) -/

/-- The bytes of a size code (R352). -/
def microSize (sz : BitVec 3) : Nat := 2 ^ sz.toNat

/-- The authority of a micro-access: C.ADDR + O under C, or the default capability at legacy level (R357). -/
def microAuth (s : State) (c : CoreId) (m : Micro) (cc o : MOpnd) : Auth :=
  authAt s c (opndReg m cc) (capAddr (opndRead (s.core c) m o).val)

/-- MLD (R357): its distance is 4 steps. -/
def execMld (c : CoreId) (d cc o : MOpnd) (sz : BitVec 3) (s : State) : Host.Outcome State Fault Refusal :=
  microStep c (opndOk d && gCoded cc && opndOk o && decide (sz.toNat ≤ 4)) (fun _ m t s =>
    let a := microAuth s c m cc o
    let n := microSize sz
    match strFault s c a n true false false with
    | some q => .trap q s
    | none =>
      let at_ := strAt c a.ea
      let v := BitVec.ofNat 128 (ofLe (s.bytes at_ n))
      match eccHit s at_ n with
      | some _ => .go (m.after (m.upc + 1)) (consume c (t + 4) 2 at_ n s)
      | none =>
        let s := softRead at_ n s
        if d.toNat < 16 then .go ({ m with loads := m.loads ++ [(m.steps + 4, opndU d, v)] }.after (m.upc + 1)) s
        else .go (m.after (m.upc + 1)) (pushReg c (t + 4) (opndReg m d) v s)) s

/-- MST (R357): it writes in its own step, and a later step reads the new bytes. -/
def execMst (c : CoreId) (d cc o : MOpnd) (sz : BitVec 3) (s : State) : Host.Outcome State Fault Refusal :=
  microStep c (opndOk d && gCoded cc && opndOk o && decide (sz.toNat ≤ 4)) (fun k m t s =>
    let a := microAuth s c m cc o
    let n := microSize sz
    match strFault s c a n false true false with
    | some q => .trap q s
    | none => .go (m.after (m.upc + 1)) (schedule c t 1 (.put (strAt c a.ea) (leBytes n (opndRead k m d).val.toNat) none) s)) s

/-- MCHK (R357): PERM bit 2 is LD and bit 1 ST. -/
def execMchk (c : CoreId) (d cc o : MOpnd) (perm : BitVec 3) (s : State) : Host.Outcome State Fault Refusal :=
  microStep c (opndOk d && gCoded cc && opndOk o && !perm.getLsbD 0) (fun k m _ s =>
    let n := (capAddr (opndRead k m d).val).toNat
    match strFault s c (microAuth s c m cc o) n (perm.getLsbD 2) (perm.getLsbD 1) false with
    | some q => .trap q s
    | none => .go (m.after (m.upc + 1)) s) s

/-- ADV (R357, R273, R294). -/
def execAdv (c : CoreId) (d a b : MOpnd) (s : State) : Host.Outcome State Fault Refusal :=
  microStep c (gCoded d && opndOk a && opndOk b) (fun k m t s =>
    let v := opndRead k m a
    let by_ := capAddr (opndRead k m b).val
    let go (v : TWord) : StepOut := .go (m.after (m.upc + 1)) (pushCap c (t + 1) (opndReg m d) v s)
    if k.legacy then go (advancePtr true v by_.toNat)
    else if isSealed v then .trap (capTrap cSeal 0 (opndReg m a).val) s
    else go (moveAddr v (capAddr v.val + by_))) s

/-! ## Flags, causes and sequencing (R358-R362) -/

/-- SETF (R358): bit 5 of the mask names N, down to bit 0 for DV. -/
def execSetf (c : CoreId) (mask : BitVec 6) (s : State) : Host.Outcome State Fault Refusal :=
  microStep c true (fun _ m t s => .go (m.after (m.upc + 1)) (pushFlags c (t + 1) mask.reverse m.flags s)) s

/-- MICRO_BR (R359). -/
def execMicroBr (c : CoreId) (cond : Cond) (target : BitVec 15) (s : State) : Host.Outcome State Fault Refusal :=
  microStep c true (fun _ m _ s => .go (m.after (if condHolds cond (m.flags.setWidth 32) then target else m.upc + 1)) s) s

/-- LOOP (R359). -/
def execLoop (c : CoreId) (u : MOpnd) (target : BitVec 15) (s : State) : Host.Outcome State Fault Refusal :=
  microStep c (decide (u.toNat < 16)) (fun _ m _ s =>
    let n : BitVec 32 := m.u[opndU u].setWidth 32 - 1
    .go ((m.setU (opndU u) (n.setWidth 128)).after (if n = 0 then m.upc + 1 else target)) s) s

/-- CALL (R359). -/
def execCall (c : CoreId) (target : BitVec 15) (s : State) : Host.Outcome State Fault Refusal :=
  microStep c true (fun _ m _ s => .go ({ m with link := m.upc + 1, linkv := true }.after target) s) s

/-- ILLEGAL raised within a routine, with XINFO holding the XOP word (R358). -/
def microIllegal (k : Core) (m : Micro) : Trap := { code := 0x01, xaddr := k.pc, xinfo := m.word.setWidth 64 }

/-- MICRO_RET (R359). -/
def execMicroRet (c : CoreId) (s : State) : Host.Outcome State Fault Refusal :=
  microStep c true (fun k m _ s =>
    if m.linkv then .go ({ m with linkv := false }.after m.link) s else .trap (microIllegal k m) s) s

/-- The XOP is complete: the next instruction issues after the step of cycle t, and `extra` cycles (R348, R349). -/
def microComplete (c : CoreId) (t extra : Nat) (m : Micro) (s : State) : State :=
  let s := endMicro c s
  finish c m.start (t + 1 - m.start + extra) (s.core c).seq s

/-- YIELD (R360): an event that waits ends the instruction here; with DN = 1 it is complete. -/
def execYield (c : CoreId) (dn : Bool) (s : State) : Host.Outcome State Fault Refusal :=
  microStep c true (fun _ m t s =>
    if wouldAccept c (t + 1) s then
      if dn then .ended (microComplete c t 0 m s)
      else .ended ((endMicro c s).modSeq c fun q => { q with slot := q.slot + 1, nextIssue := t + 1 })
    else .go { m.after (m.upc + 1) with watch := 1 } s) s

/-- EXIT (R355, R349). -/
def execExit (c : CoreId) (s : State) : Host.Outcome State Fault Refusal :=
  microStep c true (fun k m t s => .ended (microComplete c t (if m.arith && stPA k.x.status then 3 else 0) m s)) s

/-- TRAP_ILLEGAL (R358). -/
def execTrapIllegal (c : CoreId) (s : State) : Host.Outcome State Fault Refusal :=
  microStep c true (fun k m _ s => .trap (microIllegal k m) s) s

/-- Whether the enable of an arithmetic cause is set (R358). -/
def trapEnabled (k : Core) (code : BitVec 8) : Bool :=
  match code.toNat with
  | 0x10 => stOE k.x.status
  | 0x11 => stDZE k.x.status
  | _ => causeEnabled k.regs.dctl k.x.status code

/-- TRAP_ARITHMETIC (R358): the first cause of an execution is recorded for the XOP's slot. -/
def execTrapArithmetic (c : CoreId) (cause : BitVec 8) (s : State) : Host.Outcome State Fault Refusal :=
  microStep c (decide (0x10 ≤ cause.toNat) && decide (cause.toNat ≤ 0x14)) (fun k m _ s =>
    if trapEnabled k cause && !m.caused then .go { m.after (m.upc + 1) with caused := true } (recordCause c cause s)
    else .go (m.after (m.upc + 1)) s) s

/-- MICRO_WATCHDOG (R362). -/
def execMicroWatchdog (c : CoreId) (s : State) : Host.Outcome State Fault Refusal :=
  match (s.core c).seq.micro with
  | none => .next s
  | some m =>
    if m.watch < 4096 || !runs s c then .next s
    else
      let t := max s.now m.cycle
      .next (watchdog c t m ((settle t s).modCore c (settleCore false t)))

/-! ## XOP (R349, R364, R365) -/

/-- XOPENT of an XOP on a core (R370). -/
def xopent (s : State) (c : CoreId) (n : BitVec 6) : BitVec 32 := s.cfg.xopent[c][n.toNat]

/-- The routine of an XOP that issues in cycle t (R354). -/
def microStart (s : State) (c : CoreId) (word : BitVec 32) (n : BitVec 6) (gd ga gb : Reg) (t : Nat) : Micro :=
  { word := word, gd := gd, ga := ga, gb := gb, u := Vector.replicate 16 0, flags := 0, link := 0, linkv := false,
    upc := (xopent s c n).setWidth 15, start := t, steps := 0, watch := 0, loads := [], caused := false,
    arith := (xopent s c n).getLsbD 30 }

/-- XOP (R349, R364, R365): the store buffer drains in the prologue, and the routine runs from its entry. -/
def execXop (c : CoreId) (cond : Cond) (n : BitVec 6) (gd ga gb : Reg) (s : State) : Host.Outcome State Fault Refusal :=
  let word := rawFmt cond 0x3E (rf gd ++ rf ga ++ rf gb ++ (0 : BitVec 1) ++ n)
  issue c { word := word, cond := cond, legal := (xopent s c n).getLsbD 31, banned := true } (fun t s =>
    if vecMemQueued (s.core c).ms t then .held id
    else .moved ((drainAll c t s).modSeq c fun q => { q with hold := none, micro := some (microStart s c word n gd ga gb t) })) s

end Sys2Proof.Machine
end

