-- ==== Sys2Proof/Machine/Loader.lean ====
section
/-! DEFINITION. The XOP loader: the manifest and its checks, and the installation (R370-R376). -/
namespace Sys2Proof.Machine

/-- Check 0x05 of R373. -/
def manSpans (m : List Byte) : Bool :=
  let l := manList m
  (l.all fun r => decide (r.num < 64) && decide (r.first + r.count ≤ manWords m)) &&
  ((l.map fun r => r.num).eraseDups.length == l.length) &&
  (List.range l.length).all fun i => (List.range i).all fun j =>
    match l[i]?, l[j]? with
    | some x, some y => !overlaps x.first x.count y.first y.count
    | _, _ => true

/-- Whether an operand code of a word is not reserved. -/
def codeOk (n : Nat) : Bool := decide (n < 0x34)

/-- R374: whether word w passes the word check in a span [lo, hi) of control-store addresses. DESIGN CHOICE (log entry 106), where the
spec does not say whether a field that an operation ignores is checked: any W passes in a DEC or BYTE word, any FN, W and F in an ADV
word, either F in a LIT word, any TARGET in a RET word, and any IMM14[13:9] in a SHI word. -/
def wordPasses (w lo hi : Nat) (arith : Bool) : Bool :=
  let mop := w / 2 ^ 27
  let d := field w 21 6
  let a := field w 15 6
  let b := field w 9 6
  let fn := field w 5 4
  let wf := field w 3 2
  let f := w.testBit 2
  let regs := codeOk d && codeOk a && codeOk b && w % 4 == 0
  let imms := codeOk d && codeOk a
  let mem := codeOk d && codeOk a && decide (0x10 ≤ a) && codeOk b && w % 64 == 0
  let sz := field w 6 3
  let cond := field w 23 4
  let u := field w 17 6
  let target := w % 2 ^ 15
  let seqs := field w 15 2 == 0
  let inside := decide (lo ≤ target) && decide (target < hi)
  match mop with
  | 0x00 => regs && decide (fn ≤ 14) && wf != 3
  | 0x01 => regs && decide (fn ≤ 7) && (!(fn == 0 || fn == 6) || d == 0x10)
  | 0x02 => regs && decide (fn ≤ 3)
  | 0x03 => codeOk d && a == 0 && fn == 0 && wf == 0 && !f && w % 4 == 0 && sregOk (BitVec.ofNat 6 b)
  | 0x04 => imms
  | 0x05 => imms
  | 0x06 => imms
  | 0x07 => imms && !w.testBit 14
  | 0x08 => codeOk d && a == 0
  | 0x09 => mem && decide (sz ≤ 4)
  | 0x0A => mem && decide (sz ≤ 4)
  | 0x0B => mem && sz % 2 == 0
  | 0x0C => regs && decide (0x10 ≤ d)
  | 0x0D => w % 8 == 0 && field w 9 18 == 0
  | 0x10 => seqs && u == 0 && inside
  | 0x11 => seqs && decide (u < 16) && cond == 14 && inside
  | 0x12 => seqs && u == 0 && cond == 14 && inside
  | 0x13 => seqs && u == 0 && cond == 14
  | 0x14 => w % 2 ^ 26 == 0
  | 0x15 => w % 2 ^ 27 == 0
  | 0x16 => field w 8 19 == 0 && (w % 256 == 1 || (arith && decide (0x10 ≤ w % 256) && decide (w % 256 ≤ 0x14)))
  | _ => false

/-- R374: whether a word ends a span. -/
def wordEnds (w : Nat) : Bool := w / 2 ^ 27 == 0x15 || (w / 2 ^ 27 == 0x10 && field w 23 4 == 14)

/-- Check 0x06 of R373: every word of every span. -/
def manImage (m : List Byte) : Bool :=
  (manList m).all fun r =>
    decide (0 < r.count) && wordEnds (manWord m (r.first + r.count - 1)) &&
    (List.range r.count).all fun i =>
      wordPasses (manWord m (r.first + i)) (0x4400 + r.first) (0x4400 + r.first + r.count) (r.flags % 2 == 1)

/-- The target cores of a load. -/
def loadTargets (s : State) : List CoreId := allCores.filter fun c => s.cfg.loader.cores.getLsbD c.val

/-- Check 0x07 of R373. -/
def manCores (s : State) : Bool :=
  (loadTargets s).all fun c =>
    present s c && !(s.core c).x.locked && (!paired s c || s.cfg.loader.cores.getLsbD (partner c).val)

/-- XOP_LOADER_GO (R373). -/
def execXopLoaderGo (s : State) : Host.Outcome State Fault Refusal := .next (loaderGo s)

/-- The XOPENT registers of the target cores written (R375). -/
def setEntries (f : Nat → BitVec 32) (s : State) : State :=
  (loadTargets s).foldl (fun s (c : CoreId) => { s with cfg := { s.cfg with xopent := s.cfg.xopent.set c (Vector.ofFn fun n => f n.val) } }) s

/-- XOP_LOAD_VERIFY_RESULT (R373, R375): the remaining checks, and step 1 of the installation. -/
def execXopLoadVerifyResult (s : State) : Host.Outcome State Fault Refusal :=
  match s.cfg.loader.job with
  | none => .next s
  | some j =>
    if j.stage ≠ 0 then .next s
    else
      match j.verdict with
      | none => .next s
      | some ok =>
        if !ok then .next (endLoad 4 s)
        else if !manSpans j.manifest then .next (endLoad 5 s)
        else if !manImage j.manifest then .next (endLoad 6 s)
        else if !manCores s then .next (endLoad 7 s)
        else .next (modLoader (fun l => { l with job := some { j with stage := 1, due := evenFrom (s.now + 1) } }) (setEntries (fun _ => 0) s))

/-- Whether a core executes a microword of the XOP area in the current cycle (R349, R375). -/
def inRoutine (s : State) (c : CoreId) : Bool :=
  match (s.core c).seq.micro with
  | some m => decide (m.start + 6 ≤ s.now)
  | none => false

/-- The words of a manifest that have reached a core. -/
def wordsAt (j : LoadJob) (c : CoreId) : Nat := (j.nextWord[c.val]?).getD 0

/-- XOP_WORD_WRITE (R375): in the next fabric cycle, each target core that executes no microword takes the next word that it lacks. Words
come one in each fabric cycle, so that a core held up takes its own in later ones (log entry 100). -/
def execXopWordWrite (s : State) : Host.Outcome State Fault Refusal :=
  match s.cfg.loader.job with
  | none => .next s
  | some j =>
    if j.stage ≠ 1 then .next s
    else
      let s := settle (max s.now j.due) s
      let total := manWords j.manifest
      let free := (loadTargets s).filter fun c => decide (wordsAt j c < total) && !inRoutine s c
      let s := free.foldl (fun s c => putBytes s (csBase c + 0x1000 + 4 * wordsAt j c) (leBytes 4 (manWord j.manifest (wordsAt j c)))) s
      let next := (List.finRange 48).map fun c => wordsAt j c + if free.contains c then 1 else 0
      let j' : LoadJob := { j with nextWord := next, due := evenFrom (s.now + 1) }
      let whole := (loadTargets s).all fun c => decide (total ≤ wordsAt j' c)
      .next (modLoader (fun l => { l with job := some { j' with stage := if whole then 2 else 1 } }) s)

/-- XOPENT as a manifest gives it for XOP n; 0 where it omits the routine (R370, R375). -/
def manEntry (m : List Byte) (n : Nat) : BitVec 32 :=
  match (manList m).find? fun r => r.num == n with
  | none => 0
  | some r => BitVec.ofNat 32 (2 ^ 31 + (r.flags % 2) * 2 ^ 30 + r.count * 2 ^ 15 + 0x4400 + r.first)

/-- XOP_LOAD_INSTALL (R375): XOPENT, REV and BUSY in one cycle. -/
def execXopLoadInstall (s : State) : Host.Outcome State Fault Refusal :=
  match s.cfg.loader.job with
  | none => .next s
  | some j =>
    if j.stage ≠ 2 then .next s
    else
      let s := setEntries (manEntry j.manifest) (settle (max s.now j.due) s)
      .next (endLoad 0 (modLoader (fun l => { l with rev := BitVec.ofNat 16 (manField j.manifest 0xA 2) }) s))

end Sys2Proof.Machine
end

