-- ==== Sys2Proof/Machine/HostLink.lean ====
section
/-! DEFINITION. The host link: rings, doorbells and admission (R432-R440), egress (R441-R443), ring reset (R444), the
mailboxes and the errors of the link (R426-R431, R445-R448). -/
namespace Sys2Proof.Machine

/-- ADMSTAT.STATE: NORMAL, BUSY, WITHHOLD (R432). -/
def rsNormal : BitVec 2 := 0
/-- See `rsNormal`. -/
def rsBusy : BitVec 2 := 1
/-- See `rsNormal`. -/
def rsWithhold : BitVec 2 := 2

/-- R444: a ring is reset; `clear` also clears the registers that the host wrote. -/
def resetRing (r : RingId) (clear : Bool) (s : State) : State :=
  let keeps (g : RingId) (live : Bool) : Bool := live && g != r
  let post (p : Post) : Post := { p with live := keeps p.ring p.live }
  let item (b : BusyItem) : BusyItem := { b with live := keeps b.ring b.live }
  let egress (e : Egress) : Egress := { e with posts := e.posts.map post, cur := e.cur.map fun t => { t with post := post t.post } }
  let s := { s with link := { s.link with busyQ := s.link.busyQ.map item, egress := s.link.egress.map egress,
                                          busyRun := s.link.busyRun.map fun b => { b with item := item b.item } } }
  modRing r (fun x =>
    let x := { x with cred := 0, whcred := 0, wcnt := 0, state := rsNormal, arrivals := [], eseq := 0, rgen := x.rgen + 1, admitted := 0 }
    if clear then { x with en := false, mir := false, cmir := 0, ehbase := 0, ecbase := 0 } else x) s

/-- A host store to RCTL (R427, R432); one that clears EN leaves MIR (R444). -/
def doRctl (r : RingId) (en mir : Bool) (s : State) : State :=
  let x := s.link.rings[r]
  if en && ringExists s r then
    modRing r (fun x => { x with en := true, mir := mir, cred := if x.en then x.cred else BitVec.allOnes 64 }) s
  else if x.en then modRing r (fun x => { x with en := false }) (resetRing r false s)
  else modRing r (fun x => { x with mir := mir }) s

/-! ## Host writes and doorbells (R433-R436) -/

/-- R436, R437: a ring at the start of a window. -/
def windowRing (x : Ring) : Ring :=
  let x :=
    if x.state = rsBusy then { x with state := rsNormal }
    else if x.state = rsWithhold ∧ x.wcnt.toNat ≤ x.ceil.toNat then { x with state := rsNormal, cred := x.cred ||| x.whcred, whcred := 0 }
    else x
  { x with wcnt := 0 }

/-- The rings at the start of n windows that follow one another with no arrival: two of them already leave a ring NORMAL (R437). -/
def windowRings (n : Nat) (rings : Vector Ring 64) : Vector Ring 64 :=
  (List.range (min n 2)).foldl (fun v _ => v.map windowRing) rings

/-- The windows that have begun by the current cycle: they begin before anything else of their first cycle (R436). -/
def openWindows (s : State) : State :=
  let n := s.now / 200000 - s.link.window
  { s with link := { s.link with window := s.link.window + n, early := s.link.early + n, rings := windowRings n s.link.rings } }

/-- A host write crosses in the first fabric cycle that is free for it (R433). -/
def hostCrosses (s : State) : State :=
  let f := max (fcFrom s.now) (s.link.lastWrite + 1)
  let s := openWindows (settle (2 * f) s)
  { s with link := { s.link with lastWrite := f } }

/-- RCTL_ENABLE (R432, R433). -/
def execRctlEnable (r : RingId) (mir : Bool) (s : State) : Host.Outcome State Fault Refusal := .next (doRctl r true mir (hostCrosses s))
/-- RCTL_DISABLE (R433, R444). -/
def execRctlDisable (r : RingId) (mir : Bool) (s : State) : Host.Outcome State Fault Refusal := .next (doRctl r false mir (hostCrosses s))
/-- RING_RESET (R444): the reset by itself. -/
def execRingReset (r : RingId) (s : State) : Host.Outcome State Fault Refusal := .next (resetRing r false s)

/-- A discarded write or doorbell counted on a ring (R434, R435). -/
def countDrop (r : RingId) (s : State) : State := modRing r (fun x => { x with dropcnt := satAdd x.dropcnt 1 }) s

/-- The parts of a host write by slot: offset in the rings' area and bytes (R434). -/
def slotParts (off : Nat) (bytes : List Byte) : List (Nat × List Byte) :=
  let first := off / 0x800
  (List.range ((off + bytes.length - 1) / 0x800 - first + 1)).map fun i =>
    let lo := max off (0x800 * (first + i))
    (lo, (bytes.drop (lo - off)).take (0x800 * (first + i + 1) - lo))

/-- The ring of an offset in the rings' area. -/
def ringAt (off : Nat) : RingId := ⟨off / 0x20000 % 64, Nat.mod_lt _ (by omega)⟩

/-- Whether the part of a host write at an offset is performed (R434). -/
def partPerformed (s : State) (off : Nat) : Bool :=
  decide (off < 0x800000) && ringOn s (ringAt off) && s.link.rings[ringAt off].cred.getLsbD (off / 0x800 % 64)

/-- Bytes written into the global scratchpad by a requester that ignores frame keys (R267, R286, R430). -/
def putGlobal (a : Nat) (bs : List Byte) (s : State) : State :=
  markFrames (storeBytes (partialEcc a bs.length s) a bs) a bs.length true

/-- Where a function's BAR2 maps n bytes from an offset on, as parts with the place of each in the rings' area and in the bytes: PF1 the whole
area, VF k ingress ring k and then egress ring k (R430). None where they do not lie in it. -/
def bar2Parts (f : FunctionId) (off n : Nat) : Option (List (Nat × Nat × Nat)) :=
  if f.val = 0 then none
  else if f.val = 1 then (if off + n ≤ 2 ^ 24 then some [(off, 0, n)] else none)
  else if 0x40000 < off + n then none
  else
    let k := f.val - 1
    let low := min n (0x20000 - off)
    some ((if 0 < low then [(0x20000 * k + off, 0, low)] else []) ++
          (if low < n then [(0x800000 + 0x20000 * k + (off + low - 0x20000), low, n - low)] else []))

/-- Whether a function takes a host's memory request: none where it does not exist and nothing is claimed (R427), and not in D3hot, in which
PCI Express completes it with Unsupported Request (R426; log entry 107). -/
def takesRequest (s : State) (f : FunctionId) : Option Bool :=
  if decide (2 ≤ f.val) && !(s.link.vfEnable && decide (f.val - 1 ≤ s.link.numVfs.toNat)) then none
  else some (!s.link.d3hot.getLsbD f.val)

/-! ## Errors (R447, R448) -/

/-- An error that AER logs: 0 correctable, 1 non-fatal, 2 fatal (R448). -/
def aerLog (sev : BitVec 2) (s : State) : State := pulse (385 + sev.toNat) (hostSend (.aer sev) s)

/-- A request completed with Unsupported Request (R448). -/
def unsupported (s : State) : State := aerLog 1 (hostSend .unsupported s)

/-- TLP_ERROR (R448). -/
def execTlpError (k : TlpError) (s : State) : Host.Outcome State Fault Refusal :=
  match k with
  | .unsupportedRequest => .next (unsupported s)
  | .poisoned => .next (aerLog 1 s)
  | .ecrc => .next (aerLog 1 s)
  | .completionTimeout => .next (aerLog 1 s)
  | .malformed => .next (aerLog 2 s)
  | .receiverOverflow => .next (aerLog 2 s)
  | .flowControl => .next (aerLog 2 s)
  | .dataLink => .next (aerLog 2 s)
  | .internal => .next (aerLog 2 s)
  | .receiverError => .next (aerLog 0 s)
  | .badTlp => .next (aerLog 0 s)
  | .badDllp => .next (aerLog 0 s)
  | .replay => .next (aerLog 0 s)

/-- IDE_STREAM_ERROR (R447, R448). -/
def execIdeStreamError (k : StreamId) (s : State) : Host.Outcome State Fault Refusal :=
  .next (aerLog 1 (pulse 391 { s with link := { s.link with ideInsecure := putBit s.link.ideInsecure k.val true } }))

/-! ## Slot writes (R430, R434) -/

/-- The parts of a host write by slot, with their places in the rings' area: sent, or discarded and counted (R434). -/
def slotWrite (s : State) (parts : List (Nat × List Byte)) : State :=
  let lost := ((parts.filter fun p => !partPerformed s p.1).map fun p => ringAt p.1).eraseDups
  let s := (parts.filter fun p => partPerformed s p.1).foldl
    (fun s p => bgWrite whoHost 0 (globalBase + p.1) p.2 s.link.lastWrite s) s
  let s := lost.foldl (fun s r => countDrop r s) s
  if lost.isEmpty then s else pulse 392 s

/-- HOST_SLOT_WRITE (R430, R434). -/
def execHostSlotWrite (place : SlotPlace) (bytes : List Byte) (s : State) : Host.Outcome State Fault Refusal :=
  match takesRequest s place.fn with
  | none => .next s
  | some false => .next (unsupported s)
  | some true =>
    match bar2Parts place.fn place.off.toNat bytes.length with
    | none => .next (unsupported s)
    | some ps =>
      if bytes.isEmpty then .next s
      else .next (slotWrite (hostCrosses s) (ps.flatMap fun (a, i, n) => slotParts a (slice bytes i n)))

/-- Whether a request of a requester's job is sent and not performed. -/
def jobBusy (s : State) (who job : Nat) : Bool :=
  (s.bg.any fun r => r.who == who && r.job == job) ||
  s.timed.any fun x => match x.what with | .send r _ _ => r.who == who && r.job == job | _ => false

/-- The state once every request of a requester's job is performed, after at most a number of fabric cycles. -/
def awaitJob (who job : Nat) : Nat → State → State
  | 0, s => s
  | n + 1, s => if jobBusy s who job then awaitJob who job n (settle (s.now + 2) s) else s

/-- R436: an accepted doorbell is classified in the current cycle. -/
def classify (r : RingId) (slot : BitVec 6) (len : BitVec 12) (s : State) : State :=
  let x := s.link.rings[r]
  let k := x.wcnt.toNat + 1
  let ceil := x.ceil.toNat
  let s := modRing r (fun x => { x with wcnt := satAdd x.wcnt 1 }) s
  if k ≤ ceil then
    let e : Arrival := { slot := slot, rgen := x.rgen, len := len, acyc := BitVec.ofNat 32 s.now, cycle := s.now }
    pulse (96 + r.val) (modRing r (fun x => { x with arrivals := x.arrivals ++ [e], admitted := putBit x.admitted slot.toNat true }) s)
  else
    let b : BusyItem := { ring := r, slot := slot, live := true, len := len, cycle := s.now }
    let s := { s with link := { s.link with busyQ := s.link.busyQ ++ [b] } }
    let s := if x.state = rsNormal then pulse 393 s else s
    let st := if k ≤ 2 * ceil then (if x.state = rsNormal then rsBusy else x.state) else rsWithhold
    modRing r (fun x => { x with state := st }) s

/-- IDB (R433, R435, R436). -/
def doIdb (r : RingId) (slot : BitVec 6) (len : BitVec 12) (s : State) : State :=
  let s := hostCrosses (awaitJob whoHost 0 bgFuel s)
  let x := s.link.rings[r]
  if ringOn s r && x.cred.getLsbD slot.toNat && decide (1 ≤ len.toNat) && decide (len.toNat ≤ 2048) then
    classify r slot len (modRing r (fun x => { x with cred := putBit x.cred slot.toNat false }) s)
  else pulse 392 (countDrop r s)

/-- IDB (R435, R436). -/
def execIdb (r : RingId) (slot : BitVec 6) (len : BitVec 12) (s : State) : Host.Outcome State Fault Refusal := .next (doIdb r slot len s)

/-- ADMISSION_WINDOW_START (R436, R437): the next window begins, where a doorbell has not begun it. -/
def execAdmissionWindowStart (s : State) : Host.Outcome State Fault Refusal :=
  if 0 < s.link.early then .next { s with link := { s.link with early := s.link.early - 1 } }
  else
    let w := s.link.window + 1
    let s := settle (max s.now (200000 * w)) s
    .next { s with link := { s.link with window := w, rings := s.link.rings.map windowRing } }

/-- A load of ARRIVE in the current cycle: the oldest entry of an earlier cycle, removed, or V = 0 (R440). -/
def popArrive (r : RingId) (s : State) : Nat × State :=
  match s.link.rings[r].arrivals with
  | e :: rest =>
    if e.cycle < s.now ∧ ringExists s r then
      (2 ^ 63 + e.slot.toNat * 2 ^ 48 + e.rgen.toNat * 2 ^ 44 + e.len.toNat * 2 ^ 32 + e.acyc.toNat,
       modRing r (fun x => { x with arrivals := rest }) s)
    else (0, s)
  | [] => (0, s)

/-! ## Handover (R438, R442, R443) -/

/-- A write given to the host-link domain on behalf of a ring. -/
def ringSend (r : RingId) (a : BitVec 64) (bs : List Byte) (s : State) : State :=
  if bs.isEmpty then s else hostSend (.write (ringFunction r) a.toNat bs) s

/-- A completion record (R443). -/
def completionRecord (eseq : BitVec 64) (len slot kind : Nat) (rcode : BitVec 32) : List Byte :=
  leBytes 8 eseq.toNat ++ leBytes 2 len ++ [BitVec.ofNat 8 slot, BitVec.ofNat 8 kind] ++ leBytes 4 rcode.toNat

/-- R438, R442: a response handed over in the current fabric cycle, with its bytes; nothing where the ring has been reset since. Its event
is raised in the first cc of the fabric cycle, as an engine's and a channel's are. -/
def handOver (r : RingId) (slot : BitVec 6) (live : Bool) (bytes : List Byte) (kind : Nat) (rcode : BitVec 32) (s : State) : State :=
  let s := openWindows s
  if !live then s
  else
    let s := modRing r (fun x =>
      let x := { x with eseq := x.eseq + 1, busycnt := if kind = 1 then satAdd x.busycnt 1 else x.busycnt }
      if x.state = rsWithhold then { x with whcred := putBit x.whcred slot.toNat true }
      else { x with cred := putBit x.cred slot.toNat true }) s
    let x := s.link.rings[r]
    let s := ringSend r (x.ehbase + BitVec.ofNat 64 (0x800 * slot.toNat)) bytes s
    let s := ringSend r (x.ecbase + BitVec.ofNat 64 (16 * ((x.eseq - 1).toNat % 64)))
      (completionRecord x.eseq bytes.length slot.toNat kind rcode) s
    let s := if x.mir then ringSend r x.cmir (leBytes 8 x.cred.toNat) s else s
    raise (evNo (160 + r.val)) (s.now - s.now % 2) s

/-! ## Egress (R441, R442) -/

/-- An egress channel changed. -/
def modEgress (x : EgressId) (f : Egress → Egress) (s : State) : State :=
  { s with link := { s.link with egress := s.link.egress.set x (f s.link.egress[x]) } }

/-- The channel of a ring (R441). -/
def ringChannel (r : RingId) : EgressId := ⟨r.val % 4, Nat.mod_lt _ (by omega)⟩

/-- An EPOST performed in the current cycle, after the stores of a core up to a place in the order of issue (R441). -/
def doEpost (r : RingId) (v : BitVec 64) (after : Option (CoreId × Nat)) (s : State) : State :=
  let x := s.link.rings[r]
  let slot : BitVec 6 := v.extractLsb' 48 6
  let rgen : BitVec 4 := v.extractLsb' 44 4
  let len : BitVec 12 := v.extractLsb' 32 12
  if rgen ≠ x.rgen then s
  else if !ringOn s r || !x.admitted.getLsbD slot.toNat || decide (2048 < len.toNat) then modRing r (fun x => { x with perr := true }) s
  else
    let p : Post := { ring := r, slot := slot, live := true, len := len, rcode := v.setWidth 32, cycle := s.now, after := after }
    modEgress (ringChannel r) (fun e => { e with posts := e.posts ++ [p] })
      (modRing r (fun x => { x with admitted := putBit x.admitted slot.toNat false }) s)

/-- EPOST (R441). -/
def execEpost (r : RingId) (v : BitVec 64) (s : State) : Host.Outcome State Fault Refusal := .next (doEpost r v none s)

/-- The job of an egress channel's reads at the host-link port. -/
def egressJob (x : EgressId) : Nat := 1 + x.val

/-- EGRESS_TRANSFER_START (R442): the read of block k of the egress slot is sent in F0 + 4k, and applies no key rule. -/
def execEgressTransferStart (x : EgressId) (s : State) : Host.Outcome State Fault Refusal :=
  let e := s.link.egress[x]
  match e.cur, e.posts with
  | none, p :: rest =>
    let f := max (p.cycle / 2) e.lastEnd + 1
    let t : Transfer := { post := p, start := f, stop := f + 130 + 4 * cdiv p.len.toNat 64 - 1 }
    let s := modEgress x (fun e => { e with posts := rest, cur := some t }) (settle (max s.now (2 * f)) s)
    .next (bgFetch whoHost (egressJob x) (egressSlot p.ring p.slot.toNat) p.len.toNat f 4 p.after s)
  | _, _ => .next s

/-- The state once the reads of an egress channel's transfer have come, after at most a number of fabric cycles. -/
def awaitEgress (x : EgressId) (t : Transfer) : Nat → State → State
  | 0, s => s
  | n + 1, s =>
    if (doneOf s whoHost (egressJob x)).length < cdiv t.post.len.toNat 64 then awaitEgress x t n (settle (s.now + 2) s) else s

/-- The handover of an egress channel (R442): at the end of the transfer's last fabric cycle. -/
def egressEnd (x : EgressId) (t : Transfer) (s : State) : State :=
  let s := awaitEgress x t bgFuel (settle (max s.now (2 * t.stop + 1)) s)
  let p := t.post
  let bytes := gathered (doneOf s whoHost (egressJob x)) p.len.toNat
  let s := modEgress x (fun e => { e with cur := none, lastEnd := t.stop }) (dropDone whoHost (egressJob x) s)
  handOver p.ring p.slot p.live bytes 0 p.rcode s

/-- EGRESS_HANDOVER (R442). -/
def execEgressHandover (x : EgressId) (s : State) : Host.Outcome State Fault Refusal :=
  match s.link.egress[x].cur with
  | none => .next s
  | some t => .next (egressEnd x t s)

/-! ## The busy responder (R439) -/

/-- BUSY_RESPONSE_START (R439): ECHO, TLEN and the template are taken in the first fabric cycle of the response, and the echo's reads are
sent. -/
def execBusyResponseStart (s : State) : Host.Outcome State Fault Refusal :=
  match s.link.busyRun, s.link.busyQ with
  | none, b :: rest =>
    let f := max (b.cycle / 2) s.link.busyEnd + 1
    let s := settle (max s.now (2 * f)) s
    let x := s.link.rings[b.ring]
    let run : BusyRun := { item := b, start := f, echo := min x.echo.toNat b.len.toNat, body := s.bytes (busyTemplate b.ring) x.tlen.toNat }
    let s := { s with link := { s.link with busyQ := rest, busyRun := some run } }
    if run.echo = 0 then .next (busyWrite run f s)
    else .next (bgFetch whoBusy 0 (ingressSlot b.ring b.slot.toNat) run.echo f 0 none s)
  | _, _ => .next s

/-- A channel that hands over for ring r in fabric cycle f does so before the busy responder (R442). -/
def channelFirst (r : RingId) (f : Nat) (s : State) : State :=
  match s.link.egress[ringChannel r].cur with
  | some t => if t.stop = f ∧ t.post.ring = r then egressEnd (ringChannel r) t s else s
  | none => s

/-- BUSY_HANDOVER (R439, R442): in the last of the response's 2,000 fabric cycles. -/
def execBusyHandover (s : State) : Host.Outcome State Fault Refusal :=
  match s.link.busyRun with
  | none => .next s
  | some b =>
    let stop := b.start + 1999
    let s := channelFirst b.item.ring stop (settle (max s.now (2 * stop + 1)) s)
    let s := awaitBg whoBusy bgFuel s
    let body := ((s.link.busyRun.map fun b => b.body).getD [])
    let live := ((s.link.busyRun.map fun b => b.item.live).getD false)
    let s := { s with link := { s.link with busyRun := none, busyEnd := stop } }
    .next (handOver b.item.ring b.item.slot live body 1 0 s)

/-! ## Resets of the link and of its functions (R427, R444, R448, R451, R480) -/

/-- Every ring number. -/
def allRings : List RingId := List.finRange 64

/-- The reset of a function that exists: its ring, and what the movers hold for it (R444, R451). -/
def resetFunction (f : FunctionId) (s : State) : State :=
  let s := if h : 1 ≤ f.val then resetRing ⟨f.val - 1, by omega⟩ true s else s
  let s := resetHostSide (fun n => n == f.val) s
  pulse 388 { s with link := { s.link with d3hot := putBit s.link.d3hot f.val false } }

/-- FUNCTION_LEVEL_RESET (R426, R444, R451): a VF that does not exist takes no request (R427); a return from D3hot acts as a function-level
reset. -/
def execFunctionLevelReset (e : FlrEvent) (s : State) : Host.Outcome State Fault Refusal :=
  match takesRequest s e.fn, e.cause with
  | none, _ => .next s
  | some _, .flr => .next (resetFunction e.fn s)
  | some _, .toD3hot => .next { s with link := { s.link with d3hot := putBit s.link.d3hot e.fn.val true } }
  | some awake, .toD0 => if awake then .next s else .next (resetFunction e.fn s)

/-- VF_ENABLE_SET (R427). -/
def execVfEnableSet (n : BitVec 6) (s : State) : Host.Outcome State Fault Refusal :=
  if s.link.vfEnable then .next s else .next { s with link := { s.link with vfEnable := true, numVfs := n } }

/-- The VF rings that exist, reset, and VF Enable cleared (R444, R451). -/
def clearVfs (s : State) : State :=
  let n := s.link.numVfs.toNat
  let s := (allRings.filter fun r => decide (1 ≤ r.val) && ringExists s r).foldl (fun s r => resetRing r true s) s
  let s := resetHostSide (fun f => decide (2 ≤ f) && decide (f ≤ n + 1)) s
  { s with link := { s.link with vfEnable := false } }

/-- VF_ENABLE_CLEAR (R444, R451). -/
def execVfEnableClear (s : State) : Host.Outcome State Fault Refusal := if s.link.vfEnable then .next (clearVfs s) else .next s

/-- R448, R451, R480: a reset of the link: every ring is reset and the link's configuration returns to its reset values. -/
def resetLink (s : State) : State :=
  let s := allRings.foldl (fun s r => resetRing r true s) s
  let s := resetHostSide (fun _ => true) s
  pulse 384 { s with link := { s.link with up := false, width := 0, speed := 0, vfEnable := false, numVfs := 0, msixMask := 0,
                                           msixPend := Vector.replicate 65 0, ideInsecure := 0, d3hot := 0, doe := none } }

/-- Whether a width and a rate are one of the nine combinations of L0 (R426, R431). -/
def linkReaches (width : BitVec 5) (speed : BitVec 4) : Bool :=
  (width == 4 || width == 8 || width == 16) && (speed == 4 || speed == 5 || speed == 6)

/-- LINK_STATE_CHANGE (R426, R431, R448): a link that cannot reach L0 stays in Detect, and one that was in L0 goes down. -/
def execLinkStateChange (up : Bool) (width : BitVec 5) (speed : BitVec 4) (s : State) : Host.Outcome State Fault Refusal :=
  if !up then .next (resetLink s)
  else if linkReaches width speed then .next (pulse 384 { s with link := { s.link with up := true, width := width, speed := speed } })
  else if s.link.up then .next (resetLink s)
  else .next s

/-- PCIE_PERST (R480). -/
def execPciePerst (s : State) : Host.Outcome State Fault Refusal := .next (resetLink s)

/-! ## The mailboxes (R445, R446) -/

/-- MBH2D written by the host (R445). -/
def doMbh2d (len : BitVec 13) (s : State) : State :=
  if s.link.mbBusy then s
  else
    let starts := decide (1 ≤ len.toNat) && decide (len.toNat ≤ 4096)
    let s := { s with link := { s.link with mbH2d := len, mbBusy := starts } }
    if starts then pulse 389 s else s

/-- MBH2D (R433, R445). -/
def execMbh2d (len : BitVec 13) (s : State) : Host.Outcome State Fault Refusal := .next (doMbh2d len (hostCrosses s))

/-- MBD2H written by base level (R445). -/
def doMbd2h (len : BitVec 13) (s : State) : State := msixSend 0 { s with link := { s.link with mbD2h := len, mbBusy := false } }

/-- MBD2H (R445). -/
def execMbd2h (len : BitVec 13) (s : State) : Host.Outcome State Fault Refusal := .next (doMbd2h len s)

/-- DOE_REQUEST (R446): objects of up to 4 KB. -/
def execDoeRequest (len : Nat) (s : State) : Host.Outcome State Fault Refusal :=
  if len ≤ 4096 then .next (pulse 390 { s with link := { s.link with doe := some len } }) else .next s

end Sys2Proof.Machine
end

