-- ==== Sys2Proof/Machine/Power.lean ====
section
/-! DEFINITION. The always-on domain: clock modes (R472-R476), the timestamp domain (R477, R478), supplies and temperature
(R479-R485), device reset (R486, R487), the fuses and the trim page (R494-R496), tampering (R392), and patrol scrub (R468). -/
namespace Sys2Proof.Machine

/-- The always-on registers changed. -/
def modPw (f : Power → Power) (s : State) : State := { s with pw := f s.pw }

/-! ## Timestamp domain (R477, R478) -/

/-- The cc of one tick of TSCLK. -/
def tickCc (lean : Bool) : Nat := if lean then 100 else 200

/-- The TAI counter brought up to date: its value set to that of the current cycle, with what has passed of a tick, in cc
of a mode. -/
def rebaseTai (lean : Bool) (s : State) : State :=
  let (sec, ns) := taiNow s
  let rest := (s.now - s.pw.taiCycle) % tickCc s.lean
  let rest := if s.lean = lean then rest else if lean then rest / 2 else 2 * rest
  let ovf := decide (1000000000 ≤ s.pw.taiNs.toNat + 100 * ((s.now - s.pw.taiCycle) / tickCc s.lean))
  modPw (fun p => { p with taiSec := sec, taiNs := ns, taiCycle := s.now - rest, wrapped := p.wrapped || (p.tsok && ovf) }) s

/-- SYNC follows its three conditions (R478). -/
def judgeSync (p : Power) : Power := { p with sync := p.taiApplied && decide (3 ≤ p.goodEdges) && p.tsok }

/-- TSPPS_EDGE (R477, R478): an edge `ticks` ticks of TSCLK after the edge before. -/
def execTsppsEdge (ticks : Nat) (s : State) : Host.Outcome State Fault Refusal :=
  let s := rebaseTai s.lean s
  let late := s.pw.wrapped && decide (s.pw.taiNs.toNat / 100 ≤ 10)
  let good := decide (9999999 ≤ ticks) && decide (ticks ≤ 10000001)
  .next (modPw (fun p =>
    let p := { p with taiNs := 0, taiCycle := s.now, wrapped := false, taiArm := false, taiApplied := p.taiApplied || p.taiArm,
                      taiSec := if p.taiArm then p.taiSet else if late then p.taiSec else p.taiSec + 1 }
    let p := if !p.edgesSeen then { p with edgesSeen := true }
      else if good then { p with goodEdges := p.goodEdges + 1 }
      else { p with goodEdges := 0, ppserr := satAdd p.ppserr 1 }
    judgeSync p) s)

/-- TAI_SECOND_WRAP (R477): NS reaches 1,000,000,000 without an edge of TSPPS. -/
def execTaiSecondWrap (s : State) : Host.Outcome State Fault Refusal :=
  if !s.pw.tsok then .next s
  else
    let at_ := s.pw.taiCycle + tickCc s.lean * ((1000000000 - s.pw.taiNs.toNat + 99) / 100)
    let s := settle (max s.now at_) s
    .next (modPw (fun p => { p with taiNs := 0, taiCycle := at_, wrapped := true, taiSec := p.taiSec + 1 }) s)

/-- SYNC_TIMEOUT (R478): 1.1 s without an edge of TSPPS, which is missing. -/
def execSyncTimeout (s : State) : Host.Outcome State Fault Refusal :=
  .next (modPw (fun p => { p with sync := false, goodEdges := 0, ppserr := satAdd p.ppserr 1 }) s)

/-- TSCLK_LOSS (R477, R478): no edge of TSCLK for 1 µs; the counter has stood since the last one. -/
def execTsclkLoss (s : State) : Host.Outcome State Fault Refusal :=
  if !s.pw.tsok then .next s
  else
    let stop := max s.pw.taiCycle (s.now - nsToCc s 1000)
    let (sec, ns) := taiNow { s with now := stop }
    .next (modPw (fun p => { p with taiSec := sec, taiNs := ns, taiCycle := s.now, tsok := false, sync := false, goodEdges := 0 }) s)

/-- TSCLK_RETURN (R477, R478). -/
def execTsclkReturn (s : State) : Host.Outcome State Fault Refusal :=
  if s.pw.tsok then .next s else .next (modPw (fun p => { p with tsok := true, taiCycle := s.now }) s)

/-! ## Lean and normal mode (R475, R476) -/

/-- Whether core c's store may change the mode in the current cycle (R476). -/
def modeChangeAllowed (s : State) (c : CoreId) : Bool :=
  (allCores.all fun j => decide (j = c) || !present s j || (s.core j).seq.inReset || (s.core j).x.locked) &&
  decide (vecOccupied (s.core c).ms s.now = 0)

/-- A store to CLKCTL.LEAN performed for core c in the current cycle (R476). -/
def doClkctl (c : CoreId) (lean : Bool) (s : State) : State :=
  if s.pw.clkLean = lean then s
  else if modeChangeAllowed s c then
    modPw (fun p => { p with clkLean := lean, clkRefused := false, clkSwitch := some (evenFrom (s.now + 2), lean) }) s
  else modPw (fun p => { p with clkRefused := true }) s

/-- CLKCTL_LEAN (R476). -/
def execClkctlLean (c : CoreId) (lean : Bool) (s : State) : Host.Outcome State Fault Refusal := .next (doClkctl c lean s)

/-- R295: the tag of every key handle in a general register cleared, also where it is still to be written. -/
def suppressHandles (k : Core) : Core :=
  let clear (v : TWord) : TWord := if isHandle v then { v with tag := false } else v
  let what (w : WriteWhat) : WriteWhat := match w with | .reg r v => .reg r (clear v) | x => x
  { k with regs := { k.regs with g := k.regs.g.map clear },
           seq := { k.seq with inflight := k.seq.inflight.map fun w => { w with what := what w.what } } }

/-- CLOCK_MODE_SWITCH (R476): the divider changes. -/
def execClockModeSwitch (s : State) : Host.Outcome State Fault Refusal :=
  match s.pw.clkSwitch with
  | none => .next s
  | some (t, lean) =>
    let s := rebaseTai lean (settle (max s.now t) s)
    let s := { modPw (fun p => { p with clkSwitch := none }) s with lean := lean }
    .next (if lean then { s with cores := s.cores.map suppressHandles } else s)

/-! ## Device reset (R473, R480-R487) -/

/-- The trim page as it stands in MRAM. -/
def trimBytes (s : State) : List Byte := if s.pw.trimPage.isEmpty then factoryTrim else s.pw.trimPage

/-- The rows that a rewrite of the trim page has written, and how many it is writing: none while a part of a head slot has the MRAM
(R420, R421, R496). -/
def trimRows (s : State) : Nat × Nat :=
  let n := mramWrite s
  let done := match s.jn.partWrite with
    | some w => if s.now < w.stop then some w.stop else none
    | none => none
  match done with
  | some stop => if s.now + n < stop then ((stop - s.pw.trimStart) / n - 1, 1) else ((stop - s.pw.trimStart) / n, 0)
  | none => ((s.now - s.pw.trimStart) / n, if s.now < s.pw.trimStart then 0 else 1)

/-- The inhibit of MRAM and fuse writes (R421, R481, R494, R496): what is being written is abandoned. The row of the trim page that is
being written holds bytes that the spec leaves open (log entry 27). -/
def inhibitWrites (s : State) : State :=
  let (row, cut) := trimRows s
  let s := journalInhibit s
  let p := s.pw
  let torn (n : Nat) : List Byte := (List.range n).map (Config.tornByte s.free)
  let s := if p.trimBusy then
      modPw (fun p => { p with trimBusy := false, trimTorn := true, trimBad := true,
                               trimPage := p.trimNew.take (64 * row) ++ torn (64 * cut) ++ (trimBytes s).drop (64 * (row + cut)) })
        { s with free := s.free + 1 }
    else s
  if p.okhBusy then
    modPw (fun p => { p with okhBusy := false, okhResult := 3, okhBad := true,
                             okh := (List.range 48).map (Config.tornByte s.free) }) { s with free := s.free + 1 }
  else s

/-- A device reset falls due in cycle t, with its bits of RSTCAUSE; the earliest one stands. -/
def dueReset (t : Nat) (cause : BitVec 8) (s : State) : State :=
  modPw (fun p => { p with resetDue := match p.resetDue with
    | none => some (t, cause)
    | some (u, c) => if u < t then some (u, c) else if u = t then some (u, c ||| cause) else some (t, cause) }) s

/-- A device reset whose condition the always-on domain finds in the current cycle: 20 ns later (R482). -/
def conditionReset (cause : BitVec 8) (s : State) : State := dueReset (s.now + nsToCc s 20) cause s

/-- The addresses whose bytes a device reset leaves undefined (R487). -/
def undefinedAt (a : Nat) : Bool :=
  (touchesWindow a 1 && decide ((a - 0x100000000) % 0x100000 < 0xA0000)) || within a 1 globalBase globalSize ||
  (decide (attBase ≤ a) && decide (a < attEnd))

/-- The device after a device reset, with RSTCAUSE: every register at its reset value, MRAM and fuses kept, memory undefined,
and issue held until the reset is released (R16, R285, R351, R487). -/
def resetDevice (rstcause : BitVec 8) (trip : Bool) (s : State) : State :=
  let r := State.reset
  let p := Power.reset s.grade
  { r with
    grade := s.grade
    mem := ((Config.undefinedCells s.free).filter fun x => undefinedAt x.1).foldl (fun m x => memSet m x.1 x.2) []
    tags := ((Config.undefinedTags s.free).filter fun a => undefinedAt a && decide (a < attBase)).foldl
      (fun l a => insertNat (wordOf a) l) []
    ks := KeyStore.reset s.ks.dmk
    headSlots := s.headSlots
    pw := { p with
      rstcause := rstcause, trip := trip, resetHeld := true, seedsValid := s.pw.seedsValid, okh := s.pw.okh,
      okhDone := s.pw.okhDone, okhBad := s.pw.okhBad, trimPage := s.pw.trimPage, trimBad := s.pw.trimBad,
      clkLost := s.pw.clkLost }
    drbg := { r.drbg with testUntil := nsToCc r 2000000 }
    jn := { r.jn with skipped := s.jn.skipped }
    sb := { r.sb with tamper := s.sb.tamper, tapIr := s.sb.tapIr, tapDr := s.sb.tapDr, tapPreload := s.sb.tapPreload }
    free := s.free + 1
    pending := s.pending }

/-- DEVICE_RESET (R482, R487): the reset that is due is applied, with the inhibit 20 ns before it. -/
def execDeviceReset (s : State) : Host.Outcome State Fault Refusal :=
  match s.pw.resetDue with
  | none => .next s
  | some (t, cause) =>
    let s := inhibitWrites (settle (max s.now (t - nsToCc s 20)) s)
    let s := settle (max s.now t) s
    .next (resetDevice (s.pw.rstcause ||| cause) s.pw.trip s)

/-- POWER_ON_RESET (R420, R481, R486, R519): VDD_AON is below its level: everything is reset, the trip latch, the TAP and the record of
the slots that this power cycle skips too. -/
def execPowerOnReset (s : State) : Host.Outcome State Fault Refusal :=
  let s := resetDevice 1 false (inhibitWrites s)
  .next { s with sb := { s.sb with tapIr := 1, tapDr := [], tapPreload := [] }, jn := { s.jn with skipped := [] },
                 pw := { s.pw with clkLost := false } }

/-- CLOCK_LOSS (R473): the reset that follows is held until the clock is back. -/
def execClockLoss (s : State) : Host.Outcome State Fault Refusal := .next (conditionReset 0x40 (modPw (fun p => { p with clkLost := true }) s))

/-- SUPPLY_RESET (R481, R482, R486). -/
def execSupplyReset (rail : ResetRail) (s : State) : Host.Outcome State Fault Refusal :=
  .next (conditionReset (match rail with | .core => 0x04 | .sram => 0x08 | .io => 0x10) s)

/-- RST_N (R480): an assertion of some length; one shorter than 10 µs may or may not count. -/
def execRstN (ns : Nat) (s : State) : Host.Outcome State Fault Refusal :=
  if 10000 ≤ ns then .next (conditionReset 0x02 s)
  else if Config.shortResetTaken s.free then .next (conditionReset 0x02 { s with free := s.free + 1 })
  else .next { s with free := s.free + 1 }

/-- A store to DEVRST performed in the current cycle (R486). -/
def doDevrst (v : BitVec 32) (s : State) : State := if v = 0x52535421 then dueReset (s.now + nsToCc s 1000) 0x20 s else s

/-- DEVRST (R482, R486). -/
def execDevrst (v : BitVec 32) (s : State) : Host.Outcome State Fault Refusal := .next (doDevrst v s)

/-! ## Supply and thermal monitors (R481-R485, R533) -/

/-- SAGWARN_N, with its event (R481). -/
def sagLine (s : State) : State := setLine 336 (s.pw.mwarn || s.pw.cwarn) s.now s

/-- SUPPLY_WARNING (R417, R421, R481). -/
def execSupplyWarning (rail : WarnRail) (s : State) : Host.Outcome State Fault Refusal :=
  match rail with
  | .core => .next (sagLine (modPw (fun p => { p with cwarn := true }) s))
  | .mram =>
    if s.pw.mwarn then .next s
    else .next (journalWarning (setLine 340 true s.now (sagLine (modPw (fun p => { p with mwarn := true }) s))))

/-- SUPPLY_WARNING_RELEASE (R481). -/
def execSupplyWarningRelease (rail : WarnRail) (s : State) : Host.Outcome State Fault Refusal :=
  match rail with
  | .core => .next (sagLine (modPw (fun p => { p with cwarn := false }) s))
  | .mram => .next (setLine 340 false s.now (sagLine (modPw (fun p => { p with mwarn := false }) s)))

/-- MRAM_WRITE_INHIBIT (R421, R481). -/
def execMramWriteInhibit (s : State) : Host.Outcome State Fault Refusal :=
  if s.pw.minh then .next s
  else .next (setLine 341 true s.now (inhibitWrites (modPw (fun p => { p with minh := true }) s)))

/-- MRAM_INHIBIT_END (R417, R421, R481). -/
def execMramInhibitEnd (s : State) : Host.Outcome State Fault Refusal :=
  if s.pw.minh then .next (journalInhibitEnd (setLine 341 false s.now (modPw (fun p => { p with minh := false }) s))) else .next s

/-- SUPPLY_TELEMETRY_TICK (R484, R533). -/
def execSupplyTelemetryTick (core io mram : BitVec 16) (s : State) : Host.Outcome State Fault Refusal :=
  .next (modPw (fun p => { p with coreMv := core, ioMv := io, mramMv := mram }) s)

/-- The trip level in 1/16 °C (R485). -/
def tripLevel : Grade → Int
  | .fd640E => 2000
  | _ => 1840

/-- The first of the highest readings with its sensor, beside the best one so far. -/
def hottest : Nat → List Int → Nat × Int → Nat × Int
  | _, [], m => m
  | i, x :: r, m => hottest (i + 1) r (if m.2 < x then (i, x) else m)

/-- THERMAL_SAMPLE (R485): the readings of the sensors, corrected by the trim offsets in force. -/
def execThermalSample (raw : List (BitVec 16)) (s : State) : Host.Outcome State Fault Refusal :=
  let vals := (List.range raw.length).map fun i => (raw.getD i 0).toInt + (s.pw.trimOffsets.getD i 0).toInt
  match vals with
  | [] => .next s
  | x :: r =>
    let (i, m) := hottest 1 r (0, x)
    let th := s.pw.thCfg.toInt
    let warn := if th ≤ m then true else if m < th - 32 then false else s.pw.thWarn
    let s := modPw (fun p => { p with tmax := BitVec.ofInt 16 m, sensor := BitVec.ofNat 4 i, thWarn := warn }) s
    let s := setLine 338 warn s.now s
    if tripLevel s.grade ≤ m then .next (conditionReset 0x80 (modPw (fun p => { p with trip := true }) s)) else .next s

/-- TAMPER_INPUT (R392, R505): a tamper input is asserted. -/
def execTamperInput (pin : TamperId) (s : State) : Host.Outcome State Fault Refusal :=
  let s := { s with sb := { s.sb with tamper := putBit s.sb.tamper pin.val true } }
  .next (startZeroise (settle (evenFrom s.now) (pulse 339 s)))

/-! ## Trim page and fuses (R494-R496) -/

/-- Whether PCRC holds (R482, R495). -/
def trimValid (s : State) : Bool := !s.pw.trimBad && crcBytes ((trimBytes s).take 0xFFC) == (trimBytes s).drop 0xFFC

/-- TRIMSTAT.MATCH (R496): 0 from device reset to the trim load (R16). -/
def trimMatch (s : State) : Bool := s.pw.trimLoaded && (trimBytes s).drop 0xFFC == identityBytes s 0x14 4

/-- Trim load (R495): the values applied, or the defaults. -/
def loadTrim (s : State) : State :=
  let off (i : Nat) : BitVec 16 := BitVec.ofNat 16 (ofLe (slice (trimBytes s) (4 + 2 * i) 2))
  if trimValid s then modPw (fun p => { p with trimLoaded := true, trimDefault := false, trimOffsets := (List.range 16).map off }) s
  else modPw (fun p => { p with trimLoaded := true, trimDefault := true, trimOffsets := [] }) s

/-- Bytes of the global scratchpad that the always-on domain reads for MRAM or the fuses: an uncorrectable error is reported (R269). -/
def readPage (a n : Nat) (s : State) : List Byte × State :=
  let (bs, _, _, s) := bgRead a n s
  (bs, s)

/-- A store to TRIMWR performed in the current cycle (R496): the first row follows the part of a head slot that is being written (R420;
log entry 27). -/
def doTrimwr (v : BitVec 32) (s : State) : State :=
  if v ≠ 0x5452494D ∨ s.pw.trimBusy ∨ s.pw.minh then s
  else
    let (new, s) := readPage s.pw.trimSrc.toNat 0xFFC s
    let start := match s.jn.partWrite with | some w => max s.now w.stop | none => s.now
    modPw (fun p => { p with trimBusy := true, trimStart := start, trimNew := new ++ crcBytes new }) s

/-- TRIMWR (R496). -/
def execTrimwr (v : BitVec 32) (s : State) : Host.Outcome State Fault Refusal := .next (doTrimwr v s)

/-- TRIM_REWRITE_COMPLETE (R496): after 320 µs. -/
def execTrimRewriteComplete (s : State) : Host.Outcome State Fault Refusal :=
  if !s.pw.trimBusy then .next s
  else
    let s := settle (max s.now (s.pw.trimStart + nsToCc s 320000)) s
    .next (modPw (fun p => { p with trimBusy := false, trimTorn := false, trimBad := false, trimPage := p.trimNew }) s)

/-- The write of 1 to OKHPROG.GO performed in the current cycle (R494). -/
def doOkhprog (s : State) : State :=
  if s.pw.okhBusy then s
  else if s.cfg.lock then modPw (fun p => { p with okhResult := 4 }) s
  else if s.pw.minh then modPw (fun p => { p with okhResult := 3 }) s
  else if s.pw.okhDone || s.pw.okhBad then modPw (fun p => { p with okhResult := 2 }) s
  else
    let (bs, s) := readPage s.pw.okhAddr.toNat 48 s
    modPw (fun p => { p with okhBusy := true, okhStart := s.now, okhNew := bs }) s

/-- OKHPROG_GO (R494). -/
def execOkhprogGo (s : State) : Host.Outcome State Fault Refusal := .next (doOkhprog s)

/-- OKH_PROGRAMMING_COMPLETE (R494): after 2 ms. -/
def execOkhProgrammingComplete (s : State) : Host.Outcome State Fault Refusal :=
  if !s.pw.okhBusy then .next s
  else
    let s := settle (max s.now (s.pw.okhStart + nsToCc s 2000000)) s
    .next (modPw (fun p => { p with okhBusy := false, okhDone := true, okhResult := 1, okh := p.okhNew }) s)

/-! ## Patrol scrub (R467, R468) -/

/-- The address of the 32-byte unit at an offset in a stack: the stacks take turns of 256 bytes (R466). -/
def stackUnit (k : StackId) (o : Nat) : Nat := attBase + (o / 256 * 4 + k.val) * 256 + o % 256 / 32 * 32

/-- PATROL_SCRUB (R467, R468): upsets that have come about since the last command, and then the unit at an offset in stack k is read and
corrected where it holds a single-bit error; PASS = 0 stops patrol scrub. -/
def execPatrolScrub (k : StackId) (off : BitVec 48) (upsets : List Upset) (s : State) : Host.Outcome State Fault Refusal :=
  let s := upsets.foldl (fun s u => upset u s) s
  let unit := stackUnit k off.toNat
  if s.mov.hbmPass = 0 ∨ attEnd ≤ unit then .next s
  else
    let s := softRead unit 32 s
    let s := { s with eccSoft := s.eccSoft.filter fun w => w ≠ unit }
    .next (match failedUnit s unit 32, eccHit s unit 32 with
      | some w, _ => stackError w s
      | none, some w => stackError w s
      | none, none => s)

end Sys2Proof.Machine
end

