-- ==== Sys2Proof/Machine/Boot.lean ====
section
/-! DEFINITION. Start-up: the boot strap, the boot image and the steps of the boot ROM (R488-R493). -/
namespace Sys2Proof.Machine

/-! ## The boot image (R490) -/

/-- A little-endian field of a boot image. -/
def imgField (m : List Byte) (o n : Nat) : Nat := ofLe (slice m o n)
/-- LIS0LEN. -/
def imgLis (m : List Byte) : Nat := imgField m 0xC 4
/-- NPATCH. -/
def imgPatches (m : List Byte) : Nat := imgField m 0x10 2
/-- LEN. -/
def imgLen (m : List Byte) : Nat := imgField m 8 4

/-- MAGIC, VERSION, LEN, the counts and every zero field are correct (R490). -/
def imgHeader (m : List Byte) : Bool :=
  let n := imgLen m
  imgField m 0 4 == 0x49424446 && imgField m 4 2 == 1 && decide (512 ≤ n) && decide (n ≤ 8388608) && decide (n ≤ m.length) &&
  decide (imgLis m % 4 = 0) && decide (imgLis m ≤ 98304) && decide (imgPatches m ≤ 1024) &&
  decide (0x200 + imgLis m + 4 * imgPatches m + 96 ≤ n) &&
  (slice m 0x14 12).all (· == 0) && (slice m 0x120 224).all (· == 0)

/-- SHA-384 of PUBKEY equals OKH where it is programmed, and VKH where it is not (R490); an unreadable OKH accepts none
(R494). -/
def imgKey (s : State) (m : List Byte) : Bool :=
  let h := sha384Bytes (slice m 0xC0 96)
  if s.pw.okhBad then false else if s.pw.okhDone then h == s.pw.okh else h == identityBytes s 0xA0 48

/-- The signature verifies (R490). -/
def imgSigned (m : List Byte) : Bool :=
  let n := imgLen m
  ecdsaVerify p384 (slice m 0xC0 96) (sha384Bytes (m.take (n - 96))) ((m.take n).drop (n - 96))

/-- The code of BOOTSTAT.ERR with which an image is refused, none where it is accepted (R490, R493). -/
def imgRefusal (s : State) (m : List Byte) : Option (BitVec 8) :=
  if !imgHeader m then some 1 else if !imgKey s m then some 2 else if !imgSigned m then some 3 else none

/-! ## The steps (R489) -/

/-- A step of start-up entered (R493). -/
def bootStep (n : BitVec 4) (s : State) : State := modPw (fun p => { p with bootStage := n }) s

/-- Start-up stops with a code (R493). -/
def bootError (e : BitVec 8) (s : State) : State := modPw (fun p => { p with bootErr := e }) s

/-- The first 32 KB of the boot ROM (R489). -/
def romImage : List Byte := (List.range 0x8000).map Config.bootRomByte

/-- Steps 2 and 3 (R489): core 0 runs at base level, LDS, LIS, the global scratchpad and the key store hold zeros, and the
first 32 KB of core 0's LIS the copy of the boot ROM. -/
def bootClear (s : State) : State :=
  let kept := s.mem.filter fun x => !(undefinedAt x.1 && decide (x.1 < attBase))
  { s with mem := memWrite kept (lisBase 0) romImage, tags := [], eccBad := s.eccBad.filter fun w => attBase ≤ w,
           eccSoft := s.eccSoft.filter fun w => attBase ≤ w, ks := { s.ks with keys := [], badSlots := [], softSlots := [] } }

/-- Step 4 (R489): the bytes of an image read into the global scratchpad. -/
def bootRead (m : List Byte) (s : State) : State := putGlobal (globalBase + 0x1000000) (m.take 8388608) s

/-- One image tried (R489, R490): its refusal, and the state with what has been read. -/
def bootTry (m : Option (List Byte)) (s : State) : Option (BitVec 8) × State :=
  match m with
  | none => (some 6, s)
  | some m => (imgRefusal s m, bootRead m s)

/-- The pieces of an image, 4 KB each. -/
def bootPieces (m : List Byte) : List (List Byte) :=
  (List.range (cdiv m.length 4096)).map fun i => (m.drop (4096 * i)).take 4096

/-- The pieces of a pushed image taken from the mailbox, each acknowledged through MBD2H (R445, R491). -/
def bootPush (m : List Byte) (s : State) : State :=
  (bootPieces m).foldl (fun s b =>
    let s := { s with mem := memWrite s.mem (ctlBase + 0x580000) b }
    let s := doMbh2d (BitVec.ofNat 13 b.length) s
    doMbd2h (Config.ackLength s.free) { s with free := s.free + 1 }) s

/-- Step 6 (R369, R489): the patch words of every present core, the matches, UREV.PATCHREV, KEYH and core 0's LIS section. -/
def bootInstall (m : List Byte) (s : State) : State :=
  let words := slice m (0x200 + imgLis m) (4 * imgPatches m)
  let s := (allCores.filter fun c => present s c).foldl (fun s c => putBytes s (csBase c) words) s
  let pm (i : Nat) : BitVec 32 := BitVec.ofNat 32 (imgField m (0x20 + 8 * i) 4) &&& 0xBFFF03FF
  let kh (i : Nat) : BitVec 64 := BitVec.ofNat 64 (imgField m (0xA0 + 8 * i) 8)
  let s := { s with cfg := { s.cfg with
    pmatch := Vector.ofFn fun i => pm i.val, patchrev := BitVec.ofNat 16 (imgField m 0x12 2),
    loader := { s.cfg.loader with keyh := Vector.ofFn fun i => kh i.val } } }
  putBytes s (lisBase 0 + 0x8000) (slice m 0x200 (imgLis m))

/-- Step 7 (R489): the stacks are trained, from the seeds where MRAM holds them, else in full; whether it succeeds. -/
def bootTrain (inp : BootInput) (s : State) : Bool × State :=
  if s.pw.seedsValid then
    if inp.seedTrainingOk then (true, s) else (false, bootError 5 (modPw (fun p => { p with seedsValid := false }) s))
  else
    let s := modPw (fun p => { p with bootFirst := true }) s
    if inp.fullTrainingOk then (true, modPw (fun p => { p with seedsValid := true }) s) else (false, bootError 5 s)

/-- Step 8 (R489): the tag table and the key table hold zeros. -/
def bootTables (s : State) : State :=
  let inTables (a : Nat) : Bool := decide (attUsable ≤ a) && decide (a < attEnd)
  { s with mem := s.mem.filter fun x => !inTables x.1, eccBad := s.eccBad.filter fun w => !inTables w,
           eccSoft := s.eccSoft.filter fun w => !inTables w }

/-- Step 9 (R391, R395, R489): the DRBG's start-up test, and the DMK, which is generated where its cells are blank. -/
def bootDrbg (inp : BootInput) (s : State) : State :=
  if rctFails inp.samples || aptFails inp.samples then failDrbg (rctFails inp.samples) (aptFails inp.samples) (modKs (fun k => { k with dmkValid := k.dmk.isSome }) s)
  else
    let s := instantiateAll s
    let s := { s with drbg := { s.drbg with state := 1 } }
    match s.ks.dmk with
    | some _ => modKs (fun k => { k with dmkValid := true }) s
    | none =>
      let (key, s) := drawBytes s 32
      modKs (fun k => { k with dmk := some key, dmkValid := true }) s

/-- Steps 6 to 10 (R489), with an accepted image: core 0 jumps to its entry. -/
def bootAccepted (inp : BootInput) (m : List Byte) (s : State) : State :=
  let s := modPw (fun p => { p with bootRev := BitVec.ofNat 16 (imgField m 6 2) }) s
  let (ok, s) := bootTrain inp (bootStep 7 (bootInstall m (bootStep 6 s)))
  if !ok then s
  else
    let s := bootStep 11 (bootDrbg inp (bootStep 9 (bootTables (bootStep 8 s))))
    s.modX 0 fun x => { x with pcc := { rootCap with val := setAddr rootCap.val 0x108000 } }

/-- The image that the host pushes through the mailbox (R491). -/
def bootMailbox (inp : BootInput) (s : State) : State :=
  match inp.pushed with
  | none => bootStep 4 s
  | some m =>
    match bootTry (some m) (bootPush m (bootStep 4 s)) with
    | (none, s) => bootAccepted inp m (bootStep 5 s)
    | (some e, s) => bootError e (bootStep 5 s)

/-- Steps 4 to 10 under BOOTSEL 0b00: copy A, then copy B, then the mailbox (R488, R491). -/
def bootFlash (inp : BootInput) (s : State) : State :=
  match bootTry inp.copyA (bootStep 4 s) with
  | (none, s) => bootAccepted inp (inp.copyA.getD []) (bootStep 5 s)
  | (some _, s) =>
    match bootTry inp.copyB s with
    | (none, s) => bootAccepted inp (inp.copyB.getD []) (modPw (fun p => { p with bootCopyB := true }) (bootStep 5 s))
    | (some e, s) => bootMailbox inp (bootError e s)

/-- BOOT_SEQUENCE (R480, R488-R493): device reset is released, and start-up runs to the jump into the image, or to where it
stops. After a thermal trip the device stays in reset (R485), and after a loss of clock it does until the clock is back (R473). -/
def execBootSequence (inp : BootInput) (s : State) : Host.Outcome State Fault Refusal :=
  if s.pw.trip || (s.pw.clkLost && !inp.clockBack) || !(s.pw.resetHeld || decide (s.pw.bootStage = 0)) then .next s
  else
    let s := loadTrim (modPw (fun p => { p with resetHeld := false, clkLost := false, bootSel := inp.strap }) s)
    let s := bootClear (bootStep 3 s)
    if !inp.selfTestOk then .next (bootError 4 s)
    else match inp.strap.toNat with
      | 0 => .next (bootFlash inp s)
      | 1 => .next (bootMailbox inp s)
      | 2 => .next s
      | _ => .next (bootError 0x0F s)

end Sys2Proof.Machine
end

