-- ==== Sys2Proof/Machine/Sideband.lean ====
section
/-! DEFINITION. The GPIO pins (R513, R514), the UART (R516), the SMBus target (R517), the Quad-SPI master (R518) and JTAG
(R519-R522). -/
namespace Sys2Proof.Machine

/-! ## GPIO (R514) -/

/-- GPIO_INPUT_CHANGE (R514): the level that the synchroniser gives. -/
def execGpioInputChange (pin : GpioId) (level : Bool) (s : State) : Host.Outcome State Fault Refusal :=
  .next (gpioLines s.now (modSb (fun b => { b with gpioPin := putBit b.gpioPin pin.val level }) s))

/-! ## UART (R512, R516) -/

/-- Event 344 follows the receive FIFO. -/
def uartLine (s : State) : State := setLine 344 (!s.sb.uartRx.isEmpty) s.now s

/-- The next byte of the transmit FIFO goes onto the line from cycle t on, where the line is free. -/
def uartShift (t : Nat) (s : State) : State :=
  match s.sb.uartEnd, s.sb.uartTx with
  | none, b :: r =>
    modSb (fun x => { x with uartTx := r, uartEnd := some (t + nsToCc s 86800), uartOut := x.uartOut ++ [b] }) s
  | _, _ => s

/-- A store to UARTTX (R516). -/
def doUarttx (b : Byte) (s : State) : State :=
  if s.sb.uartTx.length < 16 then uartShift s.now (modSb (fun x => { x with uartTx := x.uartTx ++ [b] }) s)
  else modSb (fun x => { x with txovr := true }) s

/-- UARTTX (R516). -/
def execUarttx (b : Byte) (s : State) : Host.Outcome State Fault Refusal := .next (doUarttx b s)

/-- A load of UARTRX: the oldest byte, removed, with V (R516). -/
def popUart (s : State) : Nat × State :=
  match s.sb.uartRx with
  | b :: r => (256 + b.toNat, uartLine (modSb (fun x => { x with uartRx := r }) s))
  | [] => (0, s)

/-- UART_BYTE_RECEIVED (R516). -/
def execUartByteReceived (b : Byte) (stopHigh : Bool) (s : State) : Host.Outcome State Fault Refusal :=
  if !stopHigh then .next (modSb (fun x => { x with ferr := true }) s)
  else if 16 ≤ s.sb.uartRx.length then .next (modSb (fun x => { x with rxovr := true }) s)
  else .next (uartLine (modSb (fun x => { x with uartRx := x.uartRx ++ [b] }) s))

/-- UART_BYTE_SENT (R512, R516): the stop bit of the byte on the line has been sent. -/
def execUartByteSent (s : State) : Host.Outcome State Fault Refusal :=
  match s.sb.uartEnd with
  | none => .next s
  | some t =>
    let s := settle (max s.now t) s
    .next (uartShift (max s.now t) (modSb (fun x => { x with uartEnd := none }) s))

/-! ## SMBus (R517) -/

/-- SMBUS_BLOCK_WRITE (R517): the bytes that follow the byte count. -/
def execSmbusBlockWrite (bytes : List Byte) (pecOk : Bool) (s : State) : Host.Outcome State Fault Refusal :=
  if pecOk && decide (1 ≤ bytes.length) && decide (bytes.length ≤ 72) && decide (s.sb.smRx.length < 8) then
    .next (pulse 345 (modSb (fun x => { x with smRx := x.smRx ++ [bytes] }) s))
  else .next (modSb (fun x => { x with smDrops := satAdd x.smDrops 1 }) s)

/-- SMBUS_BLOCK_READ (R517): the controller reads the packet offered; one that stops early leaves it offered. -/
def execSmbusBlockRead (whole : Bool) (s : State) : Host.Outcome State Fault Refusal :=
  match s.sb.smOffer with
  | some p =>
    if whole then
      .next (pulse 346 (modSb (fun x => { x with smOffer := none, smOut := x.smOut ++ [BitVec.ofNat 8 p.length :: p] }) s))
    else .next s
  | none => .next s

/-- SMBUS_ALERT_RESPONSE (R517): while SMB_ALERT_N is asserted the controller receives 0x4E. -/
def execSmbusAlertResponse (s : State) : Host.Outcome State Fault Refusal :=
  if s.sb.smOffer.isSome then .next (modSb (fun x => { x with smOut := x.smOut ++ [[0x4E]] }) s) else .next s

/-- SMBRXPOP.POP written with 1 (R517). -/
def doSmbrxpop (s : State) : State := modSb (fun x => { x with smRx := x.smRx.drop 1 }) s

/-- SMBRXPOP (R517). -/
def execSmbrxpop (s : State) : Host.Outcome State Fault Refusal := .next (doSmbrxpop s)

/-- A store to SMBTXCTL with GO = 1 (R517). -/
def doSmbtx (len : BitVec 7) (s : State) : State :=
  let s := modSb (fun x => { x with smTxLen := len }) s
  if s.sb.smOffer.isSome ∨ len.toNat = 0 ∨ 72 < len.toNat then s
  else modSb (fun x => { x with smOffer := some (slice x.smTxBuf 0 len.toNat) }) s

/-- SMBTXCTL_GO (R517). -/
def execSmbtxctlGo (len : BitVec 7) (s : State) : Host.Outcome State Fault Refusal := .next (doSmbtx len s)

/-! ## Quad-SPI (R518) -/

/-- Whether GO is refused (R518). -/
def qspiRefused (b : Sideband) : Bool :=
  let n := b.qLen.toNat
  decide (n = 0) || decide (16777216 < n) || decide (0x1000000 < b.qSrc.toNat + n) || decide (b.qDst.toNat % 64 ≠ 0) ||
  !inGlobal b.qDst.toNat n

/-- QSPICTL.GO written with 1 (R518): 250 ns for each command of up to 65,536 bytes, and 25 ns for each byte. -/
def doQspi (s : State) : State :=
  if s.sb.qRun.isSome then modSb (fun x => { x with qErr := 2 }) s
  else if qspiRefused s.sb then modSb (fun x => { x with qErr := 1 }) s
  else
    let n := s.sb.qLen.toNat
    modSb (fun x => { x with qErr := 0, qRun := some (x.qDst.toNat, n, s.now + nsToCc s (250 * cdiv n 65536 + 25 * n)) }) s

/-- QSPICTL_GO (R518). -/
def execQspictlGo (s : State) : Host.Outcome State Fault Refusal := .next (doQspi s)

/-- QSPI_READ_COMPLETE (R518): the bytes that the flash gave are in the global scratchpad once the last block of them is performed, a
background write of the sideband port; those before it are performed by then (log entry 109). -/
def execQspiReadComplete (bytes : List Byte) (s : State) : Host.Outcome State Fault Refusal :=
  match s.sb.qRun with
  | none => .next s
  | some (dst, n, t) =>
    let s := settle (max s.now t) s
    let early := (n - 1) / 64 * 64
    let s := if early = 0 then s else putGlobal dst (slice bytes 0 early) s
    let s := awaitBg whoSide bgFuel (bgWrite whoSide 0 (dst + early) (slice bytes early (n - early)) (fcFrom s.now) s)
    .next (pulse 347 (modSb (fun x => { x with qRun := none }) s))

/-! ## JTAG (R519-R522) -/

/-- The n bits of a number, least significant first. -/
def tapBits (n v : Nat) : List Bool := (List.range n).map fun i => v.testBit i

/-- IDCODE (R521). -/
def idcodeOf : Grade → Nat
  | .fd480S => 0xB04809D7
  | _ => 0xB06409D7

/-- An instruction of the TAP is selected, and its data register captured. -/
def tapSelect (ir : BitVec 8) (dr : List Bool) (s : State) : State := modSb (fun x => { x with tapIr := ir, tapDr := dr }) s

/-- An instruction whose data register is the boundary scan is selected. -/
def tapScan (ir : BitVec 8) (s : State) : State := tapSelect ir (Config.boundaryScan s.free) { s with free := s.free + 1 }

/-- TAP_RESET (R519): IDCODE is selected. -/
def execTapReset (s : State) : Host.Outcome State Fault Refusal := .next (tapSelect 0x01 [] s)
/-- IDCODE (R521). -/
def execIdcode (s : State) : Host.Outcome State Fault Refusal := .next (tapSelect 0x01 (tapBits 32 (idcodeOf s.grade)) s)
/-- SAMPLE/PRELOAD (R520): the scan captures, and the bits shifted in are preloaded. -/
def execSamplePreload (bits : List Bool) (s : State) : Host.Outcome State Fault Refusal :=
  .next (modSb (fun x => { x with tapPreload := bits }) (tapScan 0x02 s))
/-- EXTEST (R520): the pins take the preloaded values. -/
def execExtest (s : State) : Host.Outcome State Fault Refusal := .next (tapScan 0x03 s)
/-- EXTEST_PULSE (R520). -/
def execExtestPulse (s : State) : Host.Outcome State Fault Refusal := .next (tapScan 0x04 s)
/-- EXTEST_TRAIN (R520). -/
def execExtestTrain (s : State) : Host.Outcome State Fault Refusal := .next (tapScan 0x05 s)
/-- CLAMP (R520): the pins take the preloaded values, with the bypass register selected (log entry 30). -/
def execClamp (s : State) : Host.Outcome State Fault Refusal := .next (tapSelect 0x06 [false] s)
/-- HIGHZ (R520): the outputs are high-impedance, with the bypass register selected (log entry 30). -/
def execHighz (s : State) : Host.Outcome State Fault Refusal := .next (tapSelect 0x07 [false] s)
/-- IDDATA (R522): bytes 0x000 to 0x09F of the identity block, least significant bit first. -/
def execIddata (s : State) : Host.Outcome State Fault Refusal :=
  .next (tapSelect 0x10 (((identityBytes s 0 160).map fun b => tapBits 8 b.toNat).flatten) s)
/-- BYPASS (R520; log entry 30). -/
def execBypass (s : State) : Host.Outcome State Fault Refusal := .next (tapSelect 0xFF [false] s)

/-- Whether the pins are taken from the running device (R520). -/
def pinsTaken (b : Sideband) : Bool := decide (3 ≤ b.tapIr.toNat) && decide (b.tapIr.toNat ≤ 7)

end Sys2Proof.Machine
end

