-- ==== Sys2Proof/Machine/Control.lean ====
section
/-! DEFINITION. Control space (R14, R247): what a load of each register returns, and what a write does, by units of eight
bytes. A byte that a write does not cover keeps its value; in a field that acts when written it counts as 0. -/
namespace Sys2Proof.Machine

/-! ## Helpers -/

/-- Whether the writer is base level. -/
def fromBase : Writer → Bool
  | .base => true
  | _ => false
/-- Whether the writer is the host. -/
def fromHost : Writer → Bool
  | .host => true
  | _ => false

/-- A write of eight bytes: the bits covered, and the value under them. -/
structure UnitWrite where
  mask : BitVec 64
  val : BitVec 64
  deriving DecidableEq, Repr

/-- A register of n bits after a write of a unit, in the bits of `writable`. -/
def UnitWrite.onto {n : Nat} (w : UnitWrite) (old writable : BitVec n) : BitVec n :=
  let m := w.mask.setWidth n &&& writable
  (old &&& ~~~m) ||| (w.val.setWidth n &&& m)

/-- The field of k bits at lo after a write of a unit. -/
def UnitWrite.field {k : Nat} (w : UnitWrite) (lo : Nat) (old : BitVec k) : BitVec k :=
  (old &&& ~~~(w.mask.extractLsb' lo k)) ||| (w.val.extractLsb' lo k &&& w.mask.extractLsb' lo k)

/-- One bit after a write of a unit. -/
def UnitWrite.bit (w : UnitWrite) (i : Nat) (old : Bool) : Bool := if w.mask.getLsbD i then w.val.getLsbD i else old

/-- Whether a bit is written with 1. -/
def UnitWrite.sets (w : UnitWrite) (i : Nat) : Bool := w.mask.getLsbD i && w.val.getLsbD i

/-- Whether a 1 is written to any of k bits from lo on. -/
def UnitWrite.any (w : UnitWrite) (lo k : Nat) : Bool := (List.range k).any fun i => w.sets (lo + i)

/-- The value written, 0 where no byte covers it. -/
def UnitWrite.value (w : UnitWrite) : BitVec 64 := w.val &&& w.mask

/-- The bytes that a write covers, with their places in the unit. -/
def UnitWrite.bytes (w : UnitWrite) : List (Option Byte) :=
  (List.range 8).map fun i => if w.mask.getLsbD (8 * i) then some (w.val.extractLsb' (8 * i) 8) else none

/-- A bit as a number. -/
def b2n (b : Bool) : Nat := if b then 1 else 0

/-- The number with the given bits set. -/
def bitsOf (p : Nat → Bool) (n : Nat) : Nat := ((List.range n).map fun i => if p i then 2 ^ i else 0).sum

/-- What a command answers, as a state. -/
def after (o : Host.Outcome State Fault Refusal) (s : State) : State :=
  match o with
  | .next t => t
  | _ => s

/-- A number below a bound, as an index. -/
def idx (n m : Nat) (h : 0 < m) : Fin m := ⟨n % m, Nat.mod_lt _ h⟩

/-! ## Configuration block (R108, R248, R293, R301, R367, R368, R370, R371) -/

/-- The capability register that holds a 16-byte word of control space (R293, R371). -/
def capRegister (s : State) (o : Nat) : Option TWord :=
  if 0x1000 ≤ o ∧ o < 0x1600 then
    let c : CoreId := idx ((o - 0x1000) / 0x20) 48 (by decide)
    some (if o % 0x20 < 0x10 then s.cfg.lgcapt[c] else s.cfg.lgcaps[c])
  else if 0x3020 ≤ o ∧ o < 0x3030 then some s.cfg.loader.src
  else none

/-- The same register written. -/
def setCapRegister (o : Nat) (v : TWord) (s : State) : State :=
  if o < 0x3000 then
    let c : CoreId := idx ((o - 0x1000) / 0x20) 48 (by decide)
    if o % 0x20 < 0x10 then { s with cfg := { s.cfg with lgcapt := s.cfg.lgcapt.set c v } }
    else { s with cfg := { s.cfg with lgcaps := s.cfg.lgcaps.set c v } }
  else modLoader (fun l => { l with src := v }) s

/-- A unit of the configuration block as it reads. -/
def readCfg (s : State) (o : Nat) : Nat :=
  let l := s.cfg.loader
  if o = 0 then b2n s.cfg.lock
  else if o = 0x40 then 256 * b2n s.cfg.divact + b2n s.cfg.divmode
  else if o = 0x50 then 0x0B10 * 65536 + s.cfg.patchrev.toNat
  else if 0x80 ≤ o ∧ o < 0x100 then (s.cfg.pmatch[idx ((o - 0x80) / 8) 16 (by decide)]).toNat
  else if 0x2000 ≤ o ∧ o < 0x2180 then b2n (s.cfg.lgtrap.getLsbD ((o - 0x2000) / 8))
  else if 0x3000 ≤ o ∧ o < 0x3020 then (l.keyh[idx ((o - 0x3000) / 8) 4 (by decide)]).toNat
  else if o = 0x3030 then l.len.toNat
  else if o = 0x3038 then l.cores.toNat
  else if o = 0x3040 then l.eng.toNat
  else if o = 0x3050 then 2 ^ 31 * b2n l.busy + 65536 * l.result.toNat + l.rev.toNat
  else if 0x4000 ≤ o ∧ o < 0xA000 then
    (s.cfg.xopent[idx ((o - 0x4000) / 0x200) 48 (by decide)][idx (o % 0x200 / 8) 64 (by decide)]).toNat
  else 0

/-- A unit of the configuration block written by a core; the loader's registers need SYSREG (R371). -/
def writeCfg (who : Writer) (o : Nat) (w : UnitWrite) (s : State) : State :=
  let base := fromBase who
  let open_ := !s.cfg.lock
  let sysreg := match who with | .native b => b | .base => true | .host => false
  if o = 0 then (if base && w.sets 0 then setLock s else s)
  else if o = 0x40 then (if open_ then { s with cfg := { s.cfg with divmode := w.bit 0 s.cfg.divmode } } else s)
  else if o = 0x50 then (if open_ then { s with cfg := { s.cfg with patchrev := w.field 0 s.cfg.patchrev } } else s)
  else if 0x80 ≤ o ∧ o < 0x100 then
    let k : Fin 16 := idx ((o - 0x80) / 8) 16 (by decide)
    if open_ then { s with cfg := { s.cfg with pmatch := s.cfg.pmatch.set k (w.onto s.cfg.pmatch[k] 0xBFFF03FF) } } else s
  else if 0x2000 ≤ o ∧ o < 0x2180 then
    let j := (o - 0x2000) / 8
    if base then { s with cfg := { s.cfg with lgtrap := putBit s.cfg.lgtrap j (w.bit 0 (s.cfg.lgtrap.getLsbD j)) } } else s
  else if !sysreg then s
  else if 0x3000 ≤ o ∧ o < 0x3020 then
    let k : Fin 4 := idx ((o - 0x3000) / 8) 4 (by decide)
    if open_ then modLoader (fun l => { l with keyh := l.keyh.set k (w.onto l.keyh[k] (BitVec.allOnes 64)) }) s else s
  else if o = 0x3030 then modLoader (fun l => { l with len := w.field 0 l.len }) s
  else if o = 0x3038 then modLoader (fun l => { l with cores := w.field 0 l.cores }) s
  else if o = 0x3040 then modLoader (fun l => { l with eng := w.field 0 l.eng }) s
  else if o = 0x3048 then (if w.sets 0 then loaderGo s else s)
  else s

/-! ## Slath and scratchpad control (R264, R270) -/

/-- A unit of the Slath block as it reads. -/
def readSlath (s : State) (o : Nat) : Nat :=
  let x := s.slath
  match o with
  | 0x00 => 2 ^ 31 * b2n x.scrubEn + x.interval.toNat
  | 0x08 => 2 ^ 31 * b2n (x.units.toList.any fun u => u.starved) + x.starveCnt.toNat
  | 0x10 => 65536 * x.cecnt.toNat + x.uecnt.toNat
  | 0x18 => 2 ^ 63 * b2n x.eccValid + x.eccAddr.toNat
  | 0x20 => (mcCore s).val
  | _ => 0

/-- Slath control changed. -/
def modSlath (f : Slath → Slath) (s : State) : State := { s with slath := f s.slath }

/-- ECCADDR.VALID cleared: the line of event 342 and MCHK_N are released (R270, R333). -/
def clearEccAddr (s : State) : State := setLine 342 false s.now (modSlath (fun x => { x with eccValid := false }) s)

/-- A unit of the Slath block written by a core. A scrub interval begins anew where EN or INTERVAL changes. -/
def writeSlath (o : Nat) (w : UnitWrite) (s : State) : State :=
  match o with
  | 0x00 =>
    let en := w.bit 31 s.slath.scrubEn
    let iv := w.field 0 s.slath.interval
    if en = s.slath.scrubEn ∧ iv = s.slath.interval then s
    else modSlath (fun x => { x with scrubEn := en, interval := iv, lastDue := s.now / 2 }) s
  | 0x08 => if w.any 0 16 then modSlath (fun x => { x with starveCnt := 0 }) s else s
  | 0x10 =>
    let s := if w.any 16 16 then modSlath (fun x => { x with cecnt := 0 }) s else s
    if w.any 0 16 then modSlath (fun x => { x with uecnt := 0 }) s else s
  | 0x18 => if w.sets 63 then clearEccAddr s else s
  | 0x20 => if s.cfg.lock then s else modSlath (fun x => { x with mccore := w.field 0 x.mccore }) s
  | _ => s

/-! ## Event controller (R334, R335, R342, R344) -/

/-- Whether a source exists on this grade (R2, R334). -/
def sourceExists (s : State) (n : Nat) : Bool :=
  s.grade != .fd480S || !((decide (36 ≤ n) && decide (n < 48)) || (decide (84 ≤ n) && decide (n < 96)) || (decide (312 ≤ n) && decide (n < 320)))

/-- The raises of held lines under level delivery up to the current cycle, by the routing as it stands (R335). -/
def flushLevels (s : State) : State :=
  let one (s : State) (x : LevelSpan) : State :=
    if evLevel s x.src then (List.range (x.upTo s.now)).foldl (fun s i => raiseCores x.src (x.first + i) s) s else s
  let s1 := s.ev.levels.foldl one s
  { s1 with ev := { s1.ev with levels := s.ev.levels.filterMap fun x => x.later s.now } }

/-- A unit of the event controller as it reads. -/
def readEvents (s : State) (o : Nat) : Nat :=
  if o < 0x1000 then (if sourceExists s (o / 8) then (s.ev.route[evNo (o / 8)]).toNat else 0)
  else if o < 0x2000 then (if sourceExists s ((o - 0x1000) / 8) then (s.ev.host[evNo ((o - 0x1000) / 8)]).toNat else 0)
  else if 0x10000 ≤ o ∧ o < 0x13000 then
    let c : CoreId := idx ((o - 0x10000) / 0x100) 48 (by decide)
    let k := s.core (evCore s c)
    let x := o % 0x100
    if x < 0x40 then (k.evP.extractLsb' (8 * x) 64).toNat
    else if x < 0x80 then (k.evS.extractLsb' (8 * (x - 0x40)) 64).toNat
    else 0
  else if 0x20000 ≤ o ∧ o < 0x20600 then
    let t := s.ev.timers[(idx ((o - 0x20000) / 0x20) 48 (by decide) : CoreId)]
    match o % 0x20 with
    | 0x00 => 2 * b2n t.per + b2n t.en
    | 0x08 => t.cmp.toNat
    | 0x10 => t.period.toNat
    | _ => 0
  else 0

/-- A unit of the event controller written by a core. -/
def writeEvents (who : Writer) (o : Nat) (w : UnitWrite) (s : State) : State :=
  if o < 0x2000 then
    let n := evNo (o % 0x1000 / 8)
    if !fromBase who || !sourceExists s n.val then s
    else
      let s := flushLevels s
      if o < 0x1000 then
        let keep : BitVec 64 := if s.grade == .fd480S then 0x00F3000FFFFFFFFF else 0x00F3FFFFFFFFFFFF
        { s with ev := { s.ev with route := s.ev.route.set n (w.onto s.ev.route[n] keep) } }
      else { s with ev := { s.ev with host := s.ev.host.set n (w.onto s.ev.host[n] 0x800007FF) } }
  else if 0x20000 ≤ o ∧ o < 0x20600 then
    let c : CoreId := idx ((o - 0x20000) / 0x20) 48 (by decide)
    if !sourceExists s (48 + c.val) then s
    else match o % 0x20 with
      | 0x00 => modTimer c (fun t => { t with per := w.bit 1 t.per, en := w.bit 0 t.en }) s
      | 0x08 => modTimer c (fun t => { t with cmp := w.field 0 t.cmp }) s
      | 0x10 => modTimer c (fun t => { t with period := w.field 0 t.period }) s
      | _ => s
  else s

/-! ## Engines and key store (R397) -/

/-- ENGSTAT of an engine in the current cycle (R397). -/
def engineStat (s : State) (e : EngineId) : Nat :=
  let g := s.engines[e]
  let f := s.now / 2
  let stages := g.fetch.toList ++ g.run ++ g.wb
  let begun := match fetchStart g with
    | some x => decide (x ≤ f) && (fetchNext g x).isSome
    | none => false
  let fet := begun || stages.any fun st => decide (st.start ≤ f) && (!st.known || decide (f ≤ st.fetchEnd))
  let cmp := stages.any fun st => st.known && decide (st.cmpStart ≤ f) && decide (f ≤ st.cmpEnd)
  let wb := stages.any fun st => st.known && decide (st.cmpEnd < f) && decide (f ≤ st.wbEnd)
  if enginePresent s e.val then
    2 ^ 32 * g.done.toNat + 64 * b2n wb + 32 * b2n cmp + 16 * b2n fet + occupied g f
  else 0

/-- A unit of the engine block as it reads. -/
def readEngines (s : State) (o : Nat) : Nat :=
  if o < 49 * 8 then engineStat s (idx (o / 8) 49 (by decide))
  else if o = 0x1008 then
    let k := s.ks
    2 ^ 48 * k.epoch.toNat + 2 ^ 47 * b2n k.dmkValid + 2 ^ 46 * b2n k.zpend + (k.keys.map fun x => x.nslot).sum
  else if o = 0x1010 then
    let d := s.drbg
    65536 * d.failcnt.toNat + 8 * b2n d.apt + 4 * b2n d.rct + d.state.toNat
  else 0

/-- A unit of the engine block written by a core. -/
def writeEngines (who : Writer) (o : Nat) (w : UnitWrite) (s : State) : State :=
  if o = 0x1000 then (if fromBase who && w.sets 0 then after (execKsctlZero s) s else s)
  else if o = 0x1010 then
    { s with drbg := { s.drbg with apt := s.drbg.apt && !w.sets 3, rct := s.drbg.rct && !w.sets 2 } }
  else if o = 0x1018 then (if fromBase who && w.sets 0 then restartDrbg s else s)
  else s

/-! ## Journal and witness pairs (R413) -/

/-- A unit of the journal block as it reads. -/
def readJournal (s : State) (o : Nat) : Nat :=
  let j := s.jn
  if o = 0x00 then b2n j.en
  else if o = 0x08 then 2 ^ 63 * b2n j.run + 2 ^ 62 * b2n j.fault + 2 ^ 61 * b2n s.pw.minh + 65536 * j.bad.toNat + j.defer.toNat
  else if o = 0x10 then j.hseq.toNat
  else if o = 0x18 then j.ckseq.toNat
  else if o = 0x20 then j.sgseq.toNat
  else if o = 0x28 then j.fdone % 2 ^ 64
  else if o = 0x30 then j.ferr % 2 ^ 64
  else if o = 0x38 then j.fecnt.toNat
  else if 0x40 ≤ o ∧ o < 0x60 then ofLe (slice j.head (o - 0x40) 8)
  else if o = 0x100 then j.rbase.toNat
  else if o = 0x108 then j.rsize.toNat
  else if o = 0x110 then j.prod % 2 ^ 64
  else if o = 0x118 then j.cons % 2 ^ 64
  else if o = 0x120 then j.thresh.toNat
  else if o = 0x200 then bitsOf (fun n => (s.pair (idx n 24 (by decide))).formed) 24
  else if o = 0x208 then j.misCnt.toNat
  else 0

/-- A unit of the journal block written by a core. -/
def writeJournal (who : Writer) (o : Nat) (w : UnitWrite) (s : State) : State :=
  if o = 0x00 then
    if !fromBase who then s
    else
      let s := if w.sets 0 then after (execJctlEn s) s else s
      if w.sets 1 then dueCk 3 s else s
  else if o = 0x38 then (if w.any 0 32 then modJn (fun j => { j with fecnt := 0 }) s else s)
  else if o = 0x100 then (if s.cfg.lock then s else modJn (fun j => { j with rbase := w.field 0 j.rbase }) s)
  else if o = 0x108 then (if s.cfg.lock then s else ringLevels (modJn (fun j => { j with rsize := w.field 0 j.rsize }) s))
  else if o = 0x118 then after (execJrcons (w.field 0 (BitVec.ofNat 64 s.jn.cons)) s) s
  else if o = 0x120 then ringLevels (modJn (fun j => { j with thresh := w.field 0 j.thresh }) s)
  else if o = 0x208 then (if w.any 0 32 then modJn (fun j => { j with misCnt := 0 }) s else s)
  else s

/-! ## Movers and stacks (R450, R469) -/

/-- A unit of the mover block as it reads. -/
def readMovers (s : State) (o : Nat) : Nat :=
  if o < 0x800 then
    let x := s.mov.ch[(idx (o / 0x20) 64 (by decide) : ChannelId)]
    let f := s.now / 2
    let act := x.run.isSome || (match channelStart x with | some n => decide (n ≤ f) | none => false)
    match o % 0x20 with
    | 0x00 => 256 * x.func.toNat + 4 * b2n x.baseOnly + 2 * b2n x.host + b2n x.en
    | 0x08 => 2 ^ 32 * x.done.toNat + 65536 * x.last.toNat + 8 * b2n act + channelOccupied x f
    | _ => 0
  else if o = 0x1000 then 2 ^ 24 * s.mov.hbmPass.toNat + s.mov.hbmCeth.toNat
  else if 0x1100 ≤ o ∧ o < 0x1140 then
    let k := s.mov.hbmStacks[(idx ((o - 0x1100) / 0x10) 4 (by decide) : StackId)]
    if o % 0x10 = 0 then 2 ^ 32 * k.cecnt.toNat + b2n k.hot else 2 ^ 51 * b2n k.uev + k.ueaddr.toNat
  else 0

/-- A unit of the mover block written by a core. -/
def writeMovers (who : Writer) (o : Nat) (w : UnitWrite) (s : State) : State :=
  if o < 0x800 then
    let ch : ChannelId := idx (o / 0x20) 64 (by decide)
    if !fromBase who || o % 0x20 ≠ 0 then s
    else
      let x := s.mov.ch[ch]
      let fn := w.field 8 x.func
      let en := w.bit 0 x.en
      let s := if x.en && !en then after (execMchcfgEnClear ch s) s else s
      modCh ch (fun y => { y with func := if fn.toNat ≤ 64 then fn else y.func, baseOnly := w.bit 2 y.baseOnly,
                                  host := w.bit 1 y.host, en := en }) s
  else if o = 0x1000 then
    if fromBase who then { s with mov := { s.mov with hbmPass := w.field 24 s.mov.hbmPass, hbmCeth := w.field 0 s.mov.hbmCeth } } else s
  else if 0x1100 ≤ o ∧ o < 0x1140 then
    let k : StackId := idx ((o - 0x1100) / 0x10) 4 (by decide)
    if o % 0x10 = 0 then (if w.any 32 32 then modStack k (fun x => { x with cecnt := 0 }) s else s)
    else (if w.sets 51 then modStack k (fun x => { x with uev := false }) s else s)
  else s

/-! ## Rings and host link (R428-R432, R445) -/

/-- A unit of ring r's registers as it reads; a load of ARRIVE by a core removes the entry (R432, R440). -/
def readRing (host : Bool) (r : RingId) (o : Nat) (s : State) : Nat × State :=
  let x := s.link.rings[r]
  if o = 0x18 then (if host then (0, s) else popArrive r s)
  else
    (match o with
    | 0x00 => 2 * b2n x.mir + b2n (ringOn s r)
    | 0x08 => x.cred.toNat
    | 0x28 => 2 ^ 48 * x.tlen.toNat + 2 ^ 32 * x.echo.toNat + x.ceil.toNat
    | 0x30 => 2 ^ 48 * x.wcnt.toNat + 2 ^ 40 * x.rgen.toNat + 65536 * (setBits x.whcred).length + 256 * b2n x.perr + x.state.toNat
    | 0x38 => x.dropcnt.toNat
    | 0x40 => x.busycnt.toNat
    | 0x48 => x.cmir.toNat
    | 0x50 => x.ehbase.toNat
    | 0x58 => x.ecbase.toNat
    | 0x60 => x.eseq.toNat
    | _ => 0, s)

/-- A unit of ring r's registers written (R432); `after` names the core and its place in the order of issue, where they are known. -/
def writeRing (who : Writer) (after : Option (CoreId × Nat)) (r : RingId) (o : Nat) (w : UnitWrite) (s : State) : State :=
  let x := s.link.rings[r]
  if o = 0x38 then (if w.any 0 32 then modRing r (fun x => { x with dropcnt := 0 }) s else s)
  else if o = 0x40 then (if w.any 0 32 then modRing r (fun x => { x with busycnt := 0 }) s else s)
  else if fromHost who then
    match o with
    | 0x00 => doRctl r (w.bit 0 x.en) (w.bit 1 x.mir) s
    | 0x10 => doIdb r (w.value.extractLsb' 16 6) (w.value.extractLsb' 0 12) s
    | 0x48 => if x.en then s else modRing r (fun x => { x with cmir := w.onto x.cmir (~~~7) }) s
    | 0x50 => if x.en then s else modRing r (fun x => { x with ehbase := w.onto x.ehbase (~~~0xFFF) }) s
    | 0x58 => if x.en then s else modRing r (fun x => { x with ecbase := w.onto x.ecbase (~~~0x3FF) }) s
    | _ => s
  else
    match o with
    | 0x20 => doEpost r w.value after s
    | 0x28 =>
      if !fromBase who then s
      else
        let t := w.field 48 x.tlen
        let e := w.field 32 x.echo
        modRing r (fun x => { x with tlen := if t.toNat ≤ 256 then t else x.tlen, echo := if e.toNat ≤ 256 then e else x.echo,
                                     ceil := w.field 0 x.ceil }) s
    | 0x30 => if w.sets 8 then modRing r (fun x => { x with perr := false }) s else s
    | _ => s

/-- Control space that holds bytes as memory does: the busy templates, MBIN and MBOUT. -/
def ctlMemory (o : Nat) : Bool :=
  (decide (0x504000 ≤ o) && decide (o < 0x508000)) || (decide (0x580000 ≤ o) && decide (o < 0x582000))

/-- The bytes of a unit written into the memory behind it. -/
def putUnit (a : Nat) (w : UnitWrite) (s : State) : State := { s with mem := memWriteMasked s.mem a w.bytes }

/-- The bit that is inverted between a unit of an MSI-X table and the memory behind it: the mask bit of the entry. -/
def maskBit (o : Nat) : BitVec 64 := if o % 16 = 8 then 0x100000000 else 0

/-- A unit of an MSI-X table written (R429). -/
def putEntry (a : Nat) (w : UnitWrite) (s : State) : State := putUnit a { w with val := w.val ^^^ maskBit a } s

/-- R346: a message that waits is sent once neither its entry nor its function is masked. -/
def msixUnmasked (f i v : Nat) (s : State) : State :=
  let (_, _, a) := msixEntry v
  let pend := if h : f < 65 then s.link.msixPend[f].getLsbD i else false
  if pend && !entryMasked s a && !s.link.msixMask.getLsbD f then msixSend v (setMsixPend f i false s) else s

/-- A unit of the ring and host-link block as it reads. -/
def readLink (host : Bool) (o : Nat) (s : State) : Nat × State :=
  if o < 0x4000 then readRing host (idx (o / 0x100) 64 (by decide)) (o % 0x100) s
  else
    let l := s.link
    (if 0x90000 ≤ o ∧ o < 0x90400 then ofLe (s.bytes (ctlBase + 0x500000 + o) 8) ^^^ (maskBit o).toNat
     else if ctlMemory (0x500000 + o) then ofLe (s.bytes (ctlBase + 0x500000 + o) 8)
     else if o = 0x82000 then 2 ^ 31 * b2n l.mbBusy + l.mbH2d.toNat
     else if o = 0x82008 then l.mbD2h.toNat
     else if o = 0x90800 then (l.msixPend[(0 : Fin 65)]).toNat
     else if o = 0xA0000 then 2 ^ 30 * l.apBase.toNat + 16 * l.apKey.toNat + b2n l.apEn
     else if o = 0xA0008 then 2 ^ 15 * b2n l.up + 256 * l.width.toNat + l.speed.toNat
     else 0, s)

/-- A unit of the ring and host-link block written. -/
def writeLink (who : Writer) (after : Option (CoreId × Nat)) (o : Nat) (w : UnitWrite) (s : State) : State :=
  let a := ctlBase + 0x500000 + o
  if o < 0x4000 then writeRing who after (idx (o / 0x100) 64 (by decide)) (o % 0x100) w s
  else if o < 0x8000 then (if fromBase who then putUnit a w s else s)
  else if 0x80000 ≤ o ∧ o < 0x81000 then (if fromHost who && !s.link.mbBusy then putUnit a w s else s)
  else if 0x81000 ≤ o ∧ o < 0x82000 then (if fromBase who then putUnit a w s else s)
  else if o = 0x82000 then (if fromHost who && w.mask.extractLsb' 0 13 != 0 then doMbh2d (w.field 0 s.link.mbH2d) s else s)
  else if o = 0x82008 then (if fromBase who && w.mask.extractLsb' 0 13 != 0 then doMbd2h (w.field 0 s.link.mbD2h) s else s)
  else if 0x90000 ≤ o ∧ o < 0x90400 then
    let i := (o - 0x90000) / 16
    if fromHost who then msixUnmasked 0 i i (putEntry a w s) else s
  else if o = 0xA0000 then
    if fromBase who then
      { s with link := { s.link with apBase := w.field 30 s.link.apBase, apKey := w.field 4 s.link.apKey, apEn := w.bit 0 s.link.apEn } }
    else s
  else s

/-! ## Supplies, reset control and sideband (R328, R475-R496, R513-R518) -/

/-- A unit of the supply and reset-control block as it reads; a load of UARTRX removes the byte (R516). -/
def readSupply (host : Bool) (o : Nat) (s : State) : Nat × State :=
  let p := s.pw
  let b := s.sb
  if o = 0x308 then (if host then (0, s) else popUart s)
  else
    (match o with
    | 0x000 => 2 ^ 48 * p.mramMv.toNat + 2 ^ 32 * p.coreMv.toNat + 65536 * p.ioMv.toNat + 8 * b2n p.minh + 4 * b2n p.mwarn +
               2 * b2n p.cwarn + b2n (p.mwarn || p.cwarn)
    | 0x020 => 65536 * p.tmax.toNat + 256 * p.sensor.toNat + b2n p.thWarn
    | 0x028 => p.thCfg.toNat
    | 0x030 => p.rstcause.toNat
    | 0x040 => 4 * b2n p.clkRefused + 2 * b2n s.lean + b2n p.clkLean
    | 0x050 => 2 ^ 63 * b2n p.sync + 2 ^ 62 * b2n p.tsok + p.ppserr.toNat
    | 0x058 => 2 ^ 63 * b2n p.taiArm + p.taiSet.toNat
    | 0x060 => 2 ^ 48 * p.bootRev.toNat + 2 ^ 40 * p.bootErr.toNat + 2 ^ 36 * p.bootStage.toNat + 2 ^ 35 * b2n p.bootFirst +
               2 ^ 34 * b2n p.bootCopyB + 2 ^ 32 * p.bootSel.toNat + b2n p.bootReady
    | 0x068 => 2 ^ 60 * p.okhResult.toNat + p.okhAddr.toNat
    | 0x080 => p.trimSrc.toNat
    | 0x090 => 8 * b2n p.trimBusy + 4 * b2n p.trimTorn + 2 * b2n p.trimDefault + b2n (trimMatch s)
    | 0x100 => p.crhold.toNat
    | 0x108 => bitsOf (fun n => inResetSeen s (idx n 48 (by decide))) 48
    | 0x110 => bitsOf (fun n => (s.core (idx n 48 (by decide))).x.locked) 48
    | 0x200 => 65536 * b.gpioPol.toNat + b.gpioOe.toNat
    | 0x208 => b.gpioOut.toNat
    | 0x210 => b.gpioPin.toNat
    | 0x310 => 65536 * b.uartRx.length + 256 * (16 - b.uartTx.length) + 8 * b2n (b.uartTx.isEmpty && b.uartEnd.isNone) +
               4 * b2n b.ferr + 2 * b2n b.rxovr + b2n b.txovr
    | 0x400 => 2 ^ 31 * b2n (!b.smRx.isEmpty) + 2 ^ 24 * b.smRx.length + 65536 * b.smDrops.toNat + (b.smRx.headD []).length
    | 0x410 => 2 ^ 30 * b2n b.smOffer.isSome + b.smTxLen.toNat
    | 0x500 => b.qSrc.toNat
    | 0x508 => b.qDst.toNat
    | 0x510 => b.qLen.toNat
    | 0x518 => 2 ^ 30 * b2n b.qRun.isSome + b.qErr.toNat
    | _ =>
      if 0x600 ≤ o ∧ o < 0x648 then ofLe (slice (b.smRx.headD []) (o - 0x600) 8)
      else if 0x680 ≤ o ∧ o < 0x6C8 then ofLe (slice b.smTxBuf (o - 0x680) 8)
      else 0, s)

/-- The registers of the block that only base level writes. -/
def writeSupplyBase (c : Option CoreId) (o : Nat) (w : UnitWrite) (s : State) : State :=
  let p := s.pw
  match o with
  | 0x028 => modPw (fun p => { p with thCfg := w.field 0 p.thCfg }) s
  | 0x038 => doDevrst (w.value.setWidth 32) s
  | 0x040 => match c with | some c => doClkctl c (w.bit 0 p.clkLean) s | none => s
  | 0x058 => modPw (fun p => { p with taiArm := w.bit 63 p.taiArm, taiSet := w.field 0 p.taiSet }) s
  | 0x060 => modPw (fun p => { p with bootReady := w.bit 0 p.bootReady }) s
  | 0x068 =>
    let s := modPw (fun p => { p with okhAddr := w.field 0 p.okhAddr }) s
    if w.sets 63 then doOkhprog s else s
  | 0x080 => modPw (fun p => { p with trimSrc := w.field 0 p.trimSrc }) s
  | 0x088 => doTrimwr (w.value.setWidth 32) s
  | 0x100 => doCrhold ((w.field 0 p.crhold).setWidth 64) s
  | 0x300 => if w.mask.getLsbD 0 then doUarttx (w.val.setWidth 8) s else s
  | 0x310 => modSb (fun b => { b with ferr := b.ferr && !w.sets 2, rxovr := b.rxovr && !w.sets 1, txovr := b.txovr && !w.sets 0 }) s
  | 0x400 => if w.any 16 8 then modSb (fun b => { b with smDrops := 0 }) s else s
  | 0x408 => if w.sets 0 then doSmbrxpop s else s
  | 0x410 =>
    let n := w.field 0 s.sb.smTxLen
    if w.sets 31 then doSmbtx n s else modSb (fun b => { b with smTxLen := n }) s
  | 0x500 => modSb (fun b => { b with qSrc := w.field 0 b.qSrc }) s
  | 0x508 => modSb (fun b => { b with qDst := w.field 0 b.qDst }) s
  | 0x510 => modSb (fun b => { b with qLen := w.field 0 b.qLen }) s
  | 0x518 => if w.sets 31 then doQspi s else s
  | _ =>
    if 0x680 ≤ o ∧ o < 0x6C8 ∧ s.sb.smOffer.isNone then
      let put (l : List Byte) (i : Nat) : List Byte := match w.bytes.getD i none with | some b => l.set (o - 0x680 + i) b | none => l
      modSb (fun b => { b with smTxBuf := (List.range 8).foldl put b.smTxBuf }) s
    else s

/-- A unit of the supply and reset-control block written by a core; core c where one is known. -/
def writeSupply (who : Writer) (c : Option CoreId) (o : Nat) (w : UnitWrite) (s : State) : State :=
  match o with
  | 0x030 => modPw (fun p => { p with rstcause := p.rstcause &&& ~~~(w.value.setWidth 8) }) s
  | 0x050 => if w.any 0 16 then modPw (fun p => { p with ppserr := 0 }) s else s
  | 0x200 => gpioStored (modSb (fun b => { b with gpioPol := w.field 16 b.gpioPol, gpioOe := w.field 0 b.gpioOe }) s)
  | 0x208 => gpioStored (modSb (fun b => { b with gpioOut := w.field 0 b.gpioOut }) s)
  | _ => if fromBase who then writeSupplyBase c o w s else s

/-! ## Control space as a whole (R247, R428) -/

/-- A unit of control space as it reads, with what the load removes. -/
def readUnit (host : Bool) (u : Nat) (s : State) : Nat × State :=
  if u < 0x10000 then (readCfg s u, s)
  else if u < 0x20000 then (readSlath s (u - 0x10000), s)
  else if 0x100000 ≤ u ∧ u < 0x200000 then (readEvents s (u - 0x100000), s)
  else if 0x200000 ≤ u ∧ u < 0x300000 then (readEngines s (u - 0x200000), s)
  else if 0x300000 ≤ u ∧ u < 0x400000 then (readJournal s (u - 0x300000), s)
  else if 0x400000 ≤ u ∧ u < 0x500000 then (readMovers s (u - 0x400000), s)
  else if 0x500000 ≤ u ∧ u < 0x600000 then readLink host (u - 0x500000) s
  else if 0x600000 ≤ u ∧ u < 0x610000 then readSupply host (u - 0x600000) s
  else if 0x610000 ≤ u ∧ u < 0x611000 then (ofLe (slice (trimBytes s) (u - 0x610000) 8), s)
  else if 0x620000 ≤ u ∧ u < 0x621000 then (ofLe (identityBytes s (u - 0x620000) 8), s)
  else if 0x800000 ≤ u ∧ u < 0x900000 then (ofLe ((List.range 8).map fun i => Config.bootRomByte (u - 0x800000 + i)), s)
  else (0, s)

/-- A unit of control space written. The host's writes reach only what R428 names. -/
def writeUnit (who : Writer) (c : Option (CoreId × Nat)) (u : Nat) (w : UnitWrite) (s : State) : State :=
  if 0x500000 ≤ u ∧ u < 0x600000 then writeLink who c (u - 0x500000) w s
  else if fromHost who then s
  else if u < 0x10000 then writeCfg who u w s
  else if u < 0x20000 then writeSlath (u - 0x10000) w s
  else if 0x100000 ≤ u ∧ u < 0x200000 then writeEvents who (u - 0x100000) w s
  else if 0x200000 ≤ u ∧ u < 0x300000 then writeEngines who (u - 0x200000) w s
  else if 0x300000 ≤ u ∧ u < 0x400000 then writeJournal who (u - 0x300000) w s
  else if 0x400000 ≤ u ∧ u < 0x500000 then writeMovers who (u - 0x400000) w s
  else if 0x600000 ≤ u ∧ u < 0x610000 then writeSupply who (c.map Prod.fst) (u - 0x600000) w s
  else s

/-- The units that n bytes from an offset on touch. -/
def unitsOf (o n : Nat) : List Nat := if n = 0 then [] else (List.range ((o + n - 1) / 8 - o / 8 + 1)).map fun i => 8 * (o / 8 + i)

/-- The write of a unit that bytes at an offset make. -/
def unitWrite (o : Nat) (bs : List Byte) (u : Nat) : UnitWrite :=
  let at_ (i : Nat) : Option Byte := if o ≤ u + i then bs[u + i - o]? else none
  { mask := BitVec.ofNat 64 (ofLe ((List.range 8).map fun i => if (at_ i).isSome then 0xFF else 0)),
    val := BitVec.ofNat 64 (ofLe ((List.range 8).map fun i => (at_ i).getD 0)) }

/-- n bytes of control space from an offset on as a load in the current cycle returns them, with the tag of a capability
register, and what the load removes (R247, R293). -/
def csRead (host : Bool) (o n : Nat) (s : State) : List Byte × Bool × State :=
  match capRegister s o with
  | some v => (slice (leBytes 16 v.val.toNat) (o % 16) n, v.tag, s)
  | none =>
    let (bytes, s) := (unitsOf o n).foldl (fun (acc : List Byte × State) u =>
      let (v, t) := readUnit host u acc.2
      (acc.1 ++ leBytes 8 v, t)) ([], s)
    (slice bytes (o % 8) n, false, s)

/-- Bytes written to control space from an offset on in the current cycle, by a core at a place in the order of issue where they are known; a tag comes with a capability store of a whole
word (R247, R293). -/
def csWrite (who : Writer) (c : Option (CoreId × Nat)) (o : Nat) (bs : List Byte) (tag : Bool) (s : State) : State :=
  match capRegister s o with
  | some v =>
    let allowed := if o < 0x3000 then fromBase who else match who with | .native b => b | .base => true | .host => false
    if !allowed || bs.isEmpty then s
    else
      let new := overlay (leBytes 16 v.val.toNat) (o % 16) (bs.take (16 - o % 16))
      setCapRegister o { val := BitVec.ofNat 128 (ofLe new), tag := tag && decide (o % 16 = 0) && decide (bs.length = 16) } s
  | none => (unitsOf o bs.length).foldl (fun s u => writeUnit who c u (unitWrite o bs u) s) s

/-- ECCADDR_VALID_CLEAR (R270): base level writes 1 to ECCADDR.VALID. -/
def execEccaddrValidClear (s : State) : Host.Outcome State Fault Refusal := .next (clearEccAddr s)

end Sys2Proof.Machine
end

