-- ==== Sys2Proof/Machine/Float.lean ====
section
/-! DEFINITION. The scalar floating-point instructions (R225-R239). -/
namespace Sys2Proof.Machine

/-- The form of a floating-point instruction (R226). -/
def fpForm (word : BitVec 32) (cond : Cond) (legal : Bool) : Form := { word := word, cond := cond, legal := legal }

/-- The operand of a register (R225, R227). -/
def fpOp (k : Core) (r : Reg) : Fp := fpRead (fpDAZ k.regs.fpctl) ((k.reg r).val.setWidth 32)

/-- R232: the surcharge of an instruction that can raise some classes. -/
def fpSurcharge (ctl : BitVec 32) (can : BitVec 5) : Nat := if fpTraps ctl &&& can = 0 then 0 else 2

/-- FP_TRAP (R303). -/
def cFpTrap : BitVec 8 := 0x15

/-- The flags of a result that does not trap: ORed into FPFLAGS in the completion cycle, so that an MFS sees them from the
next one on (R233). -/
def pushFp (c : CoreId) (done : Nat) (classes : BitVec 5) (s : State) : State :=
  if classes = 0 then s else push c (done + 1) (.fpOr classes) s

/-- A floating-point instruction of an issue cost and a distance: a trap at the end of its issue cost, or its flags and its
effect (R232-R234). -/
def fpBody (c : CoreId) (cost dist : Nat) (can classes : BitVec 5) (eff : Nat → State → State) (t : Nat) (s : State) : Body :=
  let k := s.core c
  let ctl := k.regs.fpctl
  let cost' := cost + fpSurcharge ctl can
  if fpTraps ctl &&& classes ≠ 0 then .trap { code := cFpTrap, xaddr := k.pc, xinfo := classes.setWidth 64 } cost' s
  else .done cost' (pushFp c (t + dist) classes (eff (t + dist) s))

/-- An instruction that writes the 32 bits of a result with zero fill (R42). -/
def fpResult (c : CoreId) (cost dist : Nat) (can : BitVec 5) (gd : Reg) (out : Core → FpOut) (t : Nat) (s : State) : Body :=
  let o := out (s.core c)
  fpBody c cost dist can o.classes (fun due s => pushReg c due gd (o.v.setWidth 128) s) t s

/-- Every class but DZ. -/
def fpArith : BitVec 5 := fpIV ||| fpOF ||| fpUF ||| fpNX

/-- FADD (R225). -/
def execFadd (c : CoreId) (cond : Cond) (gd ga gb : Reg) (s : State) : Host.Outcome State Fault Refusal :=
  issue c (fpForm (regWord cond 0x3C gd ga gb 0 0) cond true)
    (fpResult c 1 4 fpArith gd fun k => fpAdd k.regs.fpctl (fpOp k ga) (fpOp k gb)) s

/-- FSUB (R225). -/
def execFsub (c : CoreId) (cond : Cond) (gd ga gb : Reg) (s : State) : Host.Outcome State Fault Refusal :=
  issue c (fpForm (regWord cond 0x3C gd ga gb 0 1) cond true)
    (fpResult c 1 4 fpArith gd fun k => fpAdd k.regs.fpctl (fpOp k ga) (fpOp k gb).flip) s

/-- FMUL (R225). -/
def execFmul (c : CoreId) (cond : Cond) (gd ga gb : Reg) (s : State) : Host.Outcome State Fault Refusal :=
  issue c (fpForm (regWord cond 0x3C gd ga gb 0 2) cond true)
    (fpResult c 1 4 fpArith gd fun k => fpMul k.regs.fpctl (fpOp k ga) (fpOp k gb)) s

/-- FFMA (R225). -/
def execFfma (c : CoreId) (cond : Cond) (gd ga gb : Reg) (s : State) : Host.Outcome State Fault Refusal :=
  issue c (fpForm (regWord cond 0x3C gd ga gb 0 3) cond true)
    (fpResult c 1 4 fpArith gd fun k => fpFma k.regs.fpctl (fpOp k ga) (fpOp k gb) (fpOp k gd)) s

/-- FDIV (R225, R110, R232). -/
def execFdiv (c : CoreId) (cond : Cond) (gd ga gb : Reg) (s : State) : Host.Outcome State Fault Refusal :=
  issue c { fpForm (regWord cond 0x3C gd ga gb 0 4) cond (!stepDue s c) with banned := true } (fun t s =>
    fpResult c 12 12 (fpArith ||| fpDZ) gd (fun k => fpDiv k.regs.fpctl (fpOp k ga) (fpOp k gb)) t s) s

/-- FSQRT (R225, R110, R232). -/
def execFsqrt (c : CoreId) (cond : Cond) (gd ga : Reg) (s : State) : Host.Outcome State Fault Refusal :=
  issue c { fpForm (regWord cond 0x3C gd ga 0 0 5) cond (!stepDue s c) with banned := true } (fun t s =>
    fpResult c 14 14 (fpIV ||| fpNX) gd (fun k => fpSqrt k.regs.fpctl (fpOp k ga)) t s) s

/-- The low 32 bits of a register. -/
def low32 (k : Core) (r : Reg) : BitVec 32 := (k.reg r).val.setWidth 32

/-- FMIN (R230). -/
def execFmin (c : CoreId) (cond : Cond) (gd ga gb : Reg) (s : State) : Host.Outcome State Fault Refusal :=
  issue c (fpForm (regWord cond 0x3C gd ga gb 0 6) cond true)
    (fpResult c 1 2 fpIV gd fun k => fpMinMax k.regs.fpctl false (low32 k ga) (low32 k gb)) s

/-- FMAX (R230). -/
def execFmax (c : CoreId) (cond : Cond) (gd ga gb : Reg) (s : State) : Host.Outcome State Fault Refusal :=
  issue c (fpForm (regWord cond 0x3C gd ga gb 0 7) cond true)
    (fpResult c 1 2 fpIV gd fun k => fpMinMax k.regs.fpctl true (low32 k ga) (low32 k gb)) s

/-- FCMP (R231). -/
def execFcmp (c : CoreId) (cond : Cond) (ga gb : Reg) (s : State) : Host.Outcome State Fault Refusal :=
  issue c (fpForm (regWord cond 0x3C 0 ga gb 0 8) cond true) (fun t s =>
    let k := s.core c
    let a := fpOp k ga
    let b := fpOp k gb
    fpBody c 1 2 fpIV (fpSnans a b) (fun due s => pushFlags c due 15 (fpCmpFlags a b) s) t s) s

/-- FNEG (R225). -/
def execFneg (c : CoreId) (cond : Cond) (gd ga : Reg) (s : State) : Host.Outcome State Fault Refusal :=
  issue c (fpForm (regWord cond 0x3C gd ga 0 0 9) cond true)
    (fpResult c 1 2 0 gd fun k => { v := low32 k ga ^^^ 0x80000000, classes := 0 }) s

/-- FABS (R225). -/
def execFabs (c : CoreId) (cond : Cond) (gd ga : Reg) (s : State) : Host.Outcome State Fault Refusal :=
  issue c (fpForm (regWord cond 0x3C gd ga 0 0 10) cond true)
    (fpResult c 1 2 0 gd fun k => { v := low32 k ga &&& 0x7FFFFFFF, classes := 0 }) s

/-- FCVTSW (R237). -/
def execFcvtsw (c : CoreId) (cond : Cond) (gd ga : Reg) (sh : BitVec 5) (s : State) : Host.Outcome State Fault Refusal :=
  issue c (fpForm (rawFmt cond 0x3D (rf gd ++ rf ga ++ sh ++ (0 : BitVec 7))) cond true)
    (fpResult c 1 4 fpNX gd fun k => fpFromInt k.regs.fpctl (low32 k ga).toInt sh.toInt) s

/-- FCVTWS (R238). -/
def execFcvtws (c : CoreId) (cond : Cond) (gd ga : Reg) (sh : BitVec 5) (s : State) : Host.Outcome State Fault Refusal :=
  issue c (fpForm (rawFmt cond 0x3D (rf gd ++ rf ga ++ sh ++ (0 : BitVec 2) ++ (1 : BitVec 5))) cond true)
    (fpResult c 1 4 (fpIV ||| fpNX) gd fun k => fpToInt k.regs.fpctl sh.toInt (fpOp k ga)) s

/-- A pair written by a step, and recorded as such (R235). -/
def writeFd (c : CoreId) (due : Nat) (gd : Reg) (p : FdPair) (root : Bool) (s : State) : State :=
  let (a, b) := p.words
  let s := pushReg c due (pairReg gd) b (pushReg c due gd a s)
  s.modSeq c fun q => { q with fdSeen := (gd, a, b, root) :: q.fdSeen.filter (· ≠ (gd, a, b, root)) }

/-- How the pair of gd was written: by the steps of a division or of a root, or by neither. -/
def fdOrigin (k : Core) (gd : Reg) : Option Bool :=
  let a := (k.reg gd).val
  let b := (k.reg (pairReg gd)).val
  (k.seq.fdSeen.find? fun x => x.1 == gd && x.2.1 == a && x.2.2.1 == b).map fun x => x.2.2.2

/-- The pair of gd as it stands. -/
def fdPair (k : Core) (gd : Reg) : FdPair := FdPair.ofWords (k.reg gd).val (k.reg (pairReg gd)).val

/-- FDSTEPD (R236). -/
def execFdstepd (c : CoreId) (cond : Cond) (gd ga gb : Reg) (s : State) : Host.Outcome State Fault Refusal :=
  issue c (fpForm (regWord cond 0x3D gd ga gb 0 2) cond (pairOk gd)) (fun t s =>
    let k := s.core c
    let (x, s) := draw s
    .done 1 (writeFd c (t + 1) gd (fdStartDiv k.regs.fpctl (fpOp k ga) (fpOp k gb) (Config.fdstepResult x)) false s)) s

/-- FDSTEPR (R236). -/
def execFdstepr (c : CoreId) (cond : Cond) (gd ga : Reg) (s : State) : Host.Outcome State Fault Refusal :=
  issue c (fpForm (regWord cond 0x3D gd ga 0 0 3) cond (pairOk gd)) (fun t s =>
    let k := s.core c
    let (x, s) := draw s
    .done 1 (writeFd c (t + 1) gd (fdStartRoot k.regs.fpctl (fpOp k ga) (Config.fdstepResult x)) true s)) s

/-- FDSTEP (R236): on a pair that no start instruction has written, gd + 1 takes a free value (log entry 11). -/
def execFdstep (c : CoreId) (cond : Cond) (gd : Reg) (s : State) : Host.Outcome State Fault Refusal :=
  issue c (fpForm (regWord cond 0x3D gd 0 0 0 4) cond (pairOk gd)) (fun t s =>
    let k := s.core c
    match fdOrigin k gd with
    | some root => .done 1 (writeFd c (t + 1) gd (fdStep (fdPair k gd)) root s)
    | none =>
      let (x, s) := draw s
      .done 1 (pushReg c (t + 1) (pairReg gd) (Config.fdstepResult x)
        (pushReg c (t + 1) gd (fdStep (fdPair k gd)).words.1 s))) s

/-- FDSTEPF (R236). -/
def execFdstepf (c : CoreId) (cond : Cond) (gd : Reg) (s : State) : Host.Outcome State Fault Refusal :=
  issue c (fpForm (regWord cond 0x3D gd 0 0 0 5) cond (pairOk gd)) (fun t s =>
    let k := s.core c
    let p := fdPair k gd
    let o := fdFinish k.regs.fpctl p
    let root := (fdOrigin k gd).getD (p.kind == 1)
    fpBody c 1 1 (if root then fpIV ||| fpNX else fpArith ||| fpDZ) o.classes
      (fun due s => pushReg c due (pairReg gd) (o.v.setWidth 128) (pushReg c due gd 0 s)) t s) s

end Sys2Proof.Machine
end

