-- ==== Sys2Proof/Machine/HostPort.lean ====
section
/-! DEFINITION. The host's loads and stores (R427-R431): BAR0 of each function, BAR2, the aperture BAR4, and the configuration space; and
writes to registers as a command of their own (R14, R247). -/
namespace Sys2Proof.Machine

/-! ## Stores through a BAR0 (R428, R429, R433) -/

/-- The bytes of a register write. -/
def regBytes : RegSize → Nat
  | .b1 => 1
  | .b2 => 2
  | .b4 => 4
  | .b8 => 8
  | .b16 => 16

/-- The ring of a function other than PF0 (R427). -/
def functionRing (f : FunctionId) : RingId := idx (f.val - 1) 64 (by decide)

/-- A host store to the BAR0 page of a function other than PF0 (R427, R429). -/
def hostPageWrite (f o : Nat) (bs : List Byte) (s : State) : State :=
  let r : RingId := idx (f - 1) 64 (by decide)
  if f = 0 ∨ 64 < f ∨ !ringExists s r then s
  else if o < 0x100 then csWrite .host none (0x500000 + 0x100 * r.val + o) bs false s
  else if 0x800 ≤ o ∧ o < 0x9F0 then
    let i := (o - 0x800) / 16
    msixUnmasked f i (64 + 31 * (f - 1) + i) (putEntry (hostPage f + o / 8 * 8) (unitWrite o bs (o / 8 * 8)) s)
  else s

/-- Whether a host write at an offset of a page of registers is a doorbell, whose crossing IDB makes (R435). -/
def isDoorbell (o : Nat) : Bool := decide (o % 0x100 / 8 = 2)

/-- A host store through a BAR0: 1 to 8 bytes within one unit, in the cycle in which it crosses (R428, R429, R433, R448). -/
def hostWrite (a : Nat) (bs : List Byte) (s : State) : State :=
  if 8 < bs.length ∨ 8 < a % 8 + bs.length then unsupported s
  else if within a bs.length ctlBase 0x4000000 then
    let o := a - ctlBase
    let bell := decide (0x500000 ≤ o) && decide (o < 0x504000) && isDoorbell o
    csWrite .host none o bs false (if bell then s else hostCrosses s)
  else if hostPage 0 ≤ a ∧ a < hostPage 65 then
    let f := (a - hostPage 0) / 0x1000
    let o := (a - hostPage 0) % 0x1000
    hostPageWrite f o bs (if decide (o < 0x100) && isDoorbell o then s else hostCrosses s)
  else unsupported s

/-- REGISTER_WRITE (R14, R247, R428): a write to a register, by base level, by another level, or by the host. -/
def execRegisterWrite (who : Writer) (addr : Addr) (size : RegSize) (v : TWord) (s : State) : Host.Outcome State Fault Refusal :=
  let a := addr.toNat
  let bs := leBytes (regBytes size) v.val.toNat
  match who with
  | .host => .next (hostWrite a bs s)
  | _ => if within a bs.length ctlBase ctlSize then .next (csWrite who none (a - ctlBase) bs v.tag s) else .next s

/-! ## Host loads (R428-R430; log entry 107) -/

/-- Whether a host load sees the byte at an offset of control space: not one of a BL register, but for ADMCFG, MBOUT and MBD2H (R428). -/
def hostSees (o : Nat) : Bool :=
  !blByte o || (decide (0x500000 ≤ o) && decide (o < 0x504000)) || (decide (0x581000 ≤ o) && decide (o < 0x582000)) ||
  (decide (0x582008 ≤ o) && decide (o < 0x582010))

/-- n bytes of control space as a host load returns them (R428). -/
def hostLoad (o n : Nat) (s : State) : List Byte :=
  ((csRead true o n s).1.zipIdx).map fun (b, i) => if hostSees (o + i) then b else 0

/-- A byte of the BAR0 page of a function other than PF0 (R429). -/
def pageByte (f : FunctionId) (s : State) (o : Nat) : Byte :=
  if o < 0x100 then (hostLoad (0x500000 + 0x100 * (functionRing f).val + o) 1 s).headD 0
  else if 0x800 ≤ o ∧ o < 0x9F0 then memGet s.mem (hostPage f.val + o) ^^^ (maskBit (o / 8 * 8)).extractLsb' (8 * (o % 8)) 8
  else if 0xC00 ≤ o ∧ o < 0xC08 then s.link.msixPend[f].extractLsb' (8 * (o - 0xC00)) 8
  else 0

/-- The Device ID of a function (R427). -/
def deviceId (g : Grade) (f : FunctionId) : Nat := (if g == .fd480S then 0x0480 else 0x0640) + min f.val 2

/-- The class code of a function (R427). -/
def classCode (f : FunctionId) : Nat := if f.val = 0 then 0x088000 else 0x108000

/-- A byte of the configuration space of a function: the IDs of R427, with the vendor ID of the identity block (R497); the others are free
(log entry 107). -/
def configByte (s : State) (f : FunctionId) (o : Nat) : Byte :=
  let le (v i : Nat) : Byte := BitVec.ofNat 8 (v / 256 ^ i)
  if o < 2 then le 0x0E2B o
  else if o < 4 then le (deviceId s.grade f) (o - 2)
  else if o = 8 then 0xB1
  else if 9 ≤ o ∧ o < 12 then le (classCode f) (o - 9)
  else if 0x2C ≤ o ∧ o < 0x2E then le 0x0E2B (o - 0x2C)
  else Config.configByte f.val o

/-- The reply to a host load. -/
def hostReply (bs : List Byte) (s : State) : State := hostSend (.readData bs) s

/-- The job of the host's reads at the host-link port. -/
def hostReadJob : Nat := 5

/-- A host load through BAR2: background reads of the host-link port, which apply no key rule and set AC; one that meets an uncorrectable
error completes with Unsupported Request (R261, R430; log entry 107). -/
def bar2Load (parts : List (Nat × Nat × Nat)) (s : State) : State :=
  let f := s.now / 2
  let s := parts.foldl (fun s (a, _, n) => bgFetch whoHost hostReadJob (globalBase + a) n f 0 none s) s
  let s := awaitJob whoHost hostReadJob bgFuel s
  let ds := doneOf s whoHost hostReadJob
  let s := dropDone whoHost hostReadJob s
  if ds.any fun d => d.bad.isSome then unsupported s else hostReply (ds.flatMap fun d => d.bytes) s

/-! ## The aperture (R431, R467) -/

/-- Whether an aperture access is open to n bytes from a on, but for the key rule (R431). -/
def apertureOpen (s : State) (a n : Nat) : Bool := s.link.apEn && inAttached a n

/-- An access through BAR4 (R431, R467). -/
def apertureAccess (off : Nat) (access : HostAccess) (s : State) : State :=
  let a := s.link.apBase.toNat * 2 ^ 30 + off
  let refuse (x : BitVec 2 × Nat) (s : State) : State := unsupported (if x.1 = 2 then stackError x.2 s else s)
  match access with
  | .read n =>
    if !apertureOpen s a n then unsupported s
    else match attachedCheck s s.link.apKey false a n with
      | some x => refuse x (attachedMark s s.link.apKey a n)
      | none => hostReply (s.bytes a n) (markFrames (softRead a n s) a n false)
  | .write bs =>
    if !apertureOpen s a bs.length then unsupported s
    else match attachedCheck s s.link.apKey true a bs.length with
      | some x => refuse x s
      | none => markFrames (storeBytes s a bs) a bs.length true

/-! ## An access of the host (R427-R431) -/

/-- A host access to a function that takes it, in the cycle in which it crosses. -/
def hostAccess (bar : HostBar) (off : Nat) (access : HostAccess) (s : State) : State :=
  let fits (n size : Nat) : Bool := decide (1 ≤ n) && decide (n ≤ 8) && decide (off % 8 + n ≤ 8) && decide (off + n ≤ size)
  match bar, access with
  | .bar0 f, .read n =>
    if f.val = 0 then (if fits n 0x4000000 then hostReply (hostLoad off n s) s else unsupported s)
    else if fits n 0x1000 then hostReply ((List.range n).map fun i => pageByte f s (off + i)) s
    else unsupported s
  | .bar0 f, .write bs =>
    if fits bs.length (if f.val = 0 then 0x4000000 else 0x1000) then
      hostWrite (if f.val = 0 then ctlBase + off else hostPage f.val + off) bs s
    else unsupported s
  | .bar2 f, .read n =>
    (match bar2Parts f off n with
    | some ps => bar2Load ps s
    | none => unsupported s)
  | .bar2 f, .write bs =>
    (match bar2Parts f off bs.length with
    | some ps => slotWrite (hostCrosses s) (ps.flatMap fun (a, i, n) => slotParts a (slice bs i n))
    | none => unsupported s)
  | .bar4, _ => apertureAccess off access s
  | .config f, .read n => hostReply ((List.range n).map fun i => configByte s f (off + i)) s
  | .config _, .write _ => s

/-- HOST_APERTURE_ACCESS (R427-R431): a load or a store of the host's. A function that does not exist claims nothing (R427), and one in
D3hot takes only configuration requests (log entry 107). -/
def execHostApertureAccess (place : HostPlace) (access : HostAccess) (s : State) : Host.Outcome State Fault Refusal :=
  let s := settle (evenFrom s.now) s
  let (f, config) : FunctionId × Bool := match place.bar with
    | .bar0 f => (f, false)
    | .bar2 f => (f, false)
    | .bar4 => (0, false)
    | .config f => (f, true)
  match takesRequest s f with
  | none => .next s
  | some awake => if awake || config then .next (hostAccess place.bar place.off.toNat access s) else .next (unsupported s)

end Sys2Proof.Machine
end

