-- ==== Sys2Proof/Machine/Vectors.lean ====
section
/-! DEFINITION. The Rand unit: the dispatch of vector instructions into the queue (R77-R80, R190-R205), the beats and the completion of an
entry (R78, R203-R205), and gather and scatter (R220-R224). -/
namespace Sys2Proof.Machine

/-! ## The queue (R78, R203-R205) -/

/-- VECTOR_ENTRY_BEATS (R78, R204): the front entry of the queue runs its beats, from its first one on. -/
def execVectorEntryBeats (c : CoreId) (s : State) : Host.Outcome State Fault Refusal :=
  let ms := (s.core c).ms
  match ms.vq with
  | [] => .next s
  | e :: rest =>
    if !ms.vloads.isEmpty then .next s
    else
      let s := settle e.first s
      let s := s.modMs c fun ms => { ms with vq := rest }
      match e.mem with
      | some m => .next (vecMemBeats c e m s)
      | none => .next (vecDone c e (vecEffect e (s.core c).regs) s)

/-- VECTOR_ENTRY_COMPLETE (R203, R205): the results of the front entry become visible outside the queue, a general register
from L + X + 1 on and FPFLAGS from L + 5 on. -/
def execVectorEntryComplete (c : CoreId) (s : State) : Host.Outcome State Fault Refusal :=
  match (s.core c).ms.vdone with
  | [] => .next s
  | d :: _ =>
    let s := settle (d.last + d.lat) s
    let s := s.modMs c fun ms => { ms with vdone := ms.vdone.drop 1 }
    let s := match d.gWrite with
      | some (r, v) => pushAt c (d.last + d.lat + 1) d.seq (.reg r (TWord.plain v)) s
      | none => s
    .next (if d.fpOr = 0 then s else pushAt c (d.last + 5) d.seq (.fpOr d.fpOr) s)

/-! ## Dispatch (R77, R78, R80, R192, R201, R203, R216) -/

/-- R192, R193: the effective vector length. -/
def vleOf (s : State) (k : Core) : Nat :=
  if stVM k.x.status && !stLG k.x.status && !s.lean then k.regs.vl.toNat else 128

/-- What the dispatch of a vector instruction gives: the register operand it reads, its beats, its latency and, for a load
or store, the authority. -/
structure VDispatch where
  op : TWord
  beats : Nat
  lat : Nat
  mem : Option Auth

/-- An entry put into the queue (R77, R78). -/
def enqueueVec (c : CoreId) (t : Nat) (i : Instr) (d : VDispatch) (s : State) : State :=
  let k := s.core c
  let vle := vleOf s k
  let first := max (t + 1) (k.ms.vlast + 1)
  let (seq, s) := takeSeq c s
  let a := match d.mem with | some a => a.ea | none => 0
  let e : VEntry :=
    { instr := i, disp := t, first := first, last := first + d.beats - 1, lat := d.lat, vle := vle, dctl := k.regs.dctl,
      fpctl := k.regs.fpctl, op := d.op, addr := BitVec.ofNat 52 a,
      key := (match d.mem with | some a => capKey a.cap.val | none => 0), isMem := d.mem.isSome, global := inGlobal a 1, seq := seq, pc := k.pc }
  s.modMs c fun ms => { ms with vq := ms.vq ++ [e], vlast := first + d.beats - 1 }

/-- The body of a queued vector instruction: held while the queue is full (R77). -/
def vecBody (c : CoreId) (i : Instr) (d : State → VDispatch) (t : Nat) (s : State) : Body :=
  if 4 ≤ vecOccupied (s.core c).ms t then .held id
  else .done 1 (enqueueVec c t i (d s) s)

/-- ⌈VLE/512⌉ (R203). -/
def vecBeats (s : State) (c : CoreId) : Nat := cdiv (vleOf s (s.core c)) 512

/-- A queued instruction without memory or a general operand, of the common beat count plus `more` and latency X. -/
def vecPlain (c : CoreId) (more lat : Nat) (s : State) : VDispatch :=
  { op := TWord.null, beats := vecBeats s c + more, lat := lat, mem := none }

/-- A transfer or mask operation of one beat that reads a general register (R203). -/
def vecMove (c : CoreId) (r : Reg) (s : State) : VDispatch :=
  { op := (s.core c).reg r, beats := 1, lat := 2, mem := none }

/-- R216, R526: the checks of a contiguous load or store. -/
def vecFault (s : State) (c : CoreId) (a : Auth) (n : Nat) (store : Bool) : Option Trap :=
  firstTrap [tagSealFault a, permFault (s.core c).atBase a n (if store then .store else .load),
    if inBounds a.cap.val a.ea n && (within a.ea n 0 ldsSize || inGlobal a.ea n) &&
        ((s.core c).atBase || !overlaps a.ea n framesOff 0x800) then none
    else some (capTrap cBounds a.ea a.reg)]

/-- R203, R218: the beats and the latency of a load or store. -/
def vecMemTiming (a n : Nat) (store : Bool) : Nat × Nat :=
  if inGlobal a 1 then
    let b := blocksOf a n
    if store then (4 * (b - 1) + 1, 0) else (105 + 104 * ((b - 1) / 8) + 4 * ((b - 1) % 8), 2)
  else (cdiv n 64, 2)

/-- The body of a contiguous load or store (R80, R216). -/
def vecMemBody (c : CoreId) (i : Instr) (gb : Reg) (store : Bool) (t : Nat) (s : State) : Body :=
  let k := s.core c
  let a := authAt s c gb 0
  let n := vleOf s k / 8
  if 4 ≤ vecOccupied k.ms t || !(presentEntries k.ms t).isEmpty then .held id
  else match vecFault s c a n store with
    | some q => .trap q 0 s
    | none =>
      let (b, x) := vecMemTiming a.ea n store
      .done 1 (enqueueVec c t i { op := TWord.null, beats := b, lat := x, mem := some a } s)

/-- The word of a vector instruction (R194). -/
def vecFmt (cond : Cond) (op : BitVec 6) (d a b : BitVec 5) (km : KReg) (fn : BitVec 4) : BitVec 32 :=
  rawFmt cond op (d ++ a ++ b ++ BitVec.ofNat 3 km.val ++ fn)

/-- A mask register in a five-bit field (R194). -/
def kf (k : KReg) : BitVec 5 := BitVec.ofNat 5 k.val

/-- The form of a vector instruction that is allowed in slot groups (R196). -/
def vecForm (word : BitVec 32) (cond : Cond) (legal : Bool) : Form := { word := word, cond := cond, legal := legal }

/-- The opcode of the integer instructions at a width (R195). -/
def vecOp (e : VElt) : BitVec 6 := BitVec.ofNat 6 (0x34 + eltCode e)

/-- An integer lane instruction issued (R195). -/
def vecIntIssue (c : CoreId) (cond : Cond) (e : VElt) (d : BitVec 5) (va vb : Reg) (km : KReg) (fn : BitVec 4) (i : Instr)
    (s : State) : Host.Outcome State Fault Refusal :=
  issue c (vecForm (vecFmt cond (vecOp e) d (rf va) (rf vb) km fn) cond true) (vecBody c i (vecPlain c 0 2)) s

/-- A binary32 or decimal lane instruction issued (R195, R196). -/
def vecWideIssue (c : CoreId) (cond : Cond) (op : BitVec 6) (d a b : BitVec 5) (km : KReg) (fn : BitVec 4) (legal : Bool)
    (more : Nat) (i : Instr) (s : State) : Host.Outcome State Fault Refusal :=
  issue c (vecForm (vecFmt cond op d a b km fn) cond legal) (vecBody c i (vecPlain c more 4)) s

/-- An instruction of opcode 0x3B that moves between register files or works on masks (R195). -/
def vecMoveIssue (c : CoreId) (cond : Cond) (d a b : BitVec 5) (sub : KReg) (fn : BitVec 4) (r : Reg) (i : Instr) (s : State) :
    Host.Outcome State Fault Refusal :=
  issue c (vecForm (vecFmt cond 0x3B d a b sub fn) cond true) (vecBody c i (vecMove c r)) s

/-! ## Gather and scatter (R220-R224) -/

/-- VEC_ELEMENT (R303). -/
def cVecElement : BitVec 8 := 0x0C

/-- Whether lane i, at an effective address, fails its check (R221, R223); an element that touches the base-level frames from another level
fails it too (R243; DEDUCED, log entry 110). -/
def laneFails (s : State) (c : CoreId) (a : Auth) (n ea : Nat) : Bool :=
  !(inBounds a.cap.val ea n && within ea n 0 ldsSize && ((s.core c).atBase || !overlaps ea n framesOff 0x800))

/-- The body of a gather or scatter: it waits for the queue and the store buffer, and holds issue throughout; each lane has a cycle of
its own, up to the first that fails its check (R221-R223). -/
def gatherBody (c : CoreId) (m : VMem) (gb vi : Reg) (t : Nat) (s : State) : Body :=
  let k := s.core c
  let a := authAt s c gb 0
  if vecOccupied k.ms t ≠ 0 || !(presentEntries k.ms t).isEmpty then .held id
  else
    let pre := firstTrap [tagSealFault a,
      if hasPerm a.cap.val (if m.store then permST else permLD) then none else some (capTrap cPerm a.ea a.reg)]
    match pre with
    | some q => .trap q 0 s
    | none =>
      let n := vleOf s k / m.width
      let ea (i : Nat) : Nat := (a.ea + lane 32 k.regs.w[vi] i) % 2 ^ 52
      let lanes := processed n (kreg k.regs m.km)
      let bad := lanes.find? fun i => laneFails s c a (m.width / 8) (ea i)
      let due := match bad with | some i => t + 7 + i | none => t + 6 + n
      let good := lanes.filter fun i => match bad with | some j => decide (i < j) | none => true
      let s' := good.foldl (fun s i => schedule c (t + 6 + i) (if m.store then 1 else 0) (.lane m i (ea i) due) s) s
      match bad with
      | some i => .trap { code := cVecElement, xaddr := BitVec.ofNat 52 (ea i), xinfo := BitVec.ofNat 64 i } (7 + i) s'
      | none => .done (6 + n) s'

/-- A gather or scatter issued (R195, R196). -/
def gatherIssue (c : CoreId) (cond : Cond) (fn : BitVec 4) (m : VMem) (gb vi : Reg) (s : State) :
    Host.Outcome State Fault Refusal :=
  issue c { vecForm (vecFmt cond 0x3B (rf m.reg) (rf gb) (rf vi) m.km fn) cond (m.km != 0 && (m.store || m.reg != vi)) with banned := true }
    (gatherBody c m gb vi) s

/-! ## The instructions -/

/-- VADD (R207). -/
def execVadd (c : CoreId) (cond : Cond) (e : VElt) (vd va vb : Reg) (km : KReg) (s : State) :
    Host.Outcome State Fault Refusal :=
  vecIntIssue c cond e (rf vd) va vb km 0 (.vadd c cond e vd va vb km) s

/-- VSUB (R207). -/
def execVsub (c : CoreId) (cond : Cond) (e : VElt) (vd va vb : Reg) (km : KReg) (s : State) :
    Host.Outcome State Fault Refusal :=
  vecIntIssue c cond e (rf vd) va vb km 1 (.vsub c cond e vd va vb km) s

/-- VMUL (R207). -/
def execVmul (c : CoreId) (cond : Cond) (e : VElt) (vd va vb : Reg) (km : KReg) (s : State) :
    Host.Outcome State Fault Refusal :=
  vecIntIssue c cond e (rf vd) va vb km 2 (.vmul c cond e vd va vb km) s

/-- VAND (R207). -/
def execVand (c : CoreId) (cond : Cond) (e : VElt) (vd va vb : Reg) (km : KReg) (s : State) :
    Host.Outcome State Fault Refusal :=
  vecIntIssue c cond e (rf vd) va vb km 3 (.vand c cond e vd va vb km) s

/-- VOR (R207). -/
def execVor (c : CoreId) (cond : Cond) (e : VElt) (vd va vb : Reg) (km : KReg) (s : State) :
    Host.Outcome State Fault Refusal :=
  vecIntIssue c cond e (rf vd) va vb km 4 (.vor c cond e vd va vb km) s

/-- VXOR (R207). -/
def execVxor (c : CoreId) (cond : Cond) (e : VElt) (vd va vb : Reg) (km : KReg) (s : State) :
    Host.Outcome State Fault Refusal :=
  vecIntIssue c cond e (rf vd) va vb km 5 (.vxor c cond e vd va vb km) s

/-- VSLL (R207). -/
def execVsll (c : CoreId) (cond : Cond) (e : VElt) (vd va vb : Reg) (km : KReg) (s : State) :
    Host.Outcome State Fault Refusal :=
  vecIntIssue c cond e (rf vd) va vb km 6 (.vsll c cond e vd va vb km) s

/-- VSRL (R207). -/
def execVsrl (c : CoreId) (cond : Cond) (e : VElt) (vd va vb : Reg) (km : KReg) (s : State) :
    Host.Outcome State Fault Refusal :=
  vecIntIssue c cond e (rf vd) va vb km 7 (.vsrl c cond e vd va vb km) s

/-- VSRA (R207). -/
def execVsra (c : CoreId) (cond : Cond) (e : VElt) (vd va vb : Reg) (km : KReg) (s : State) :
    Host.Outcome State Fault Refusal :=
  vecIntIssue c cond e (rf vd) va vb km 8 (.vsra c cond e vd va vb km) s

/-- VMIN (R207). -/
def execVmin (c : CoreId) (cond : Cond) (e : VElt) (vd va vb : Reg) (km : KReg) (s : State) :
    Host.Outcome State Fault Refusal :=
  vecIntIssue c cond e (rf vd) va vb km 9 (.vmin c cond e vd va vb km) s

/-- VMAX (R207). -/
def execVmax (c : CoreId) (cond : Cond) (e : VElt) (vd va vb : Reg) (km : KReg) (s : State) :
    Host.Outcome State Fault Refusal :=
  vecIntIssue c cond e (rf vd) va vb km 10 (.vmax c cond e vd va vb km) s

/-- VMINU (R207). -/
def execVminu (c : CoreId) (cond : Cond) (e : VElt) (vd va vb : Reg) (km : KReg) (s : State) :
    Host.Outcome State Fault Refusal :=
  vecIntIssue c cond e (rf vd) va vb km 11 (.vminu c cond e vd va vb km) s

/-- VMAXU (R207). -/
def execVmaxu (c : CoreId) (cond : Cond) (e : VElt) (vd va vb : Reg) (km : KReg) (s : State) :
    Host.Outcome State Fault Refusal :=
  vecIntIssue c cond e (rf vd) va vb km 12 (.vmaxu c cond e vd va vb km) s

/-- VCMPEQ (R198, R207). -/
def execVcmpeq (c : CoreId) (cond : Cond) (e : VElt) (kd : KReg) (va vb : Reg) (km : KReg) (s : State) :
    Host.Outcome State Fault Refusal :=
  vecIntIssue c cond e (kf kd) va vb km 13 (.vcmpeq c cond e kd va vb km) s

/-- VCMPLT (R198, R207). -/
def execVcmplt (c : CoreId) (cond : Cond) (e : VElt) (kd : KReg) (va vb : Reg) (km : KReg) (s : State) :
    Host.Outcome State Fault Refusal :=
  vecIntIssue c cond e (kf kd) va vb km 14 (.vcmplt c cond e kd va vb km) s

/-- VCMPLTU (R198, R207). -/
def execVcmpltu (c : CoreId) (cond : Cond) (e : VElt) (kd : KReg) (va vb : Reg) (km : KReg) (s : State) :
    Host.Outcome State Fault Refusal :=
  vecIntIssue c cond e (kf kd) va vb km 15 (.vcmpltu c cond e kd va vb km) s

/-- VFADD (R208). -/
def execVfadd (c : CoreId) (cond : Cond) (vd va vb : Reg) (km : KReg) (s : State) :
    Host.Outcome State Fault Refusal :=
  vecWideIssue c cond 0x39 (rf vd) (rf va) (rf vb) km 0 true 0 (.vfadd c cond vd va vb km) s

/-- VFSUB (R208). -/
def execVfsub (c : CoreId) (cond : Cond) (vd va vb : Reg) (km : KReg) (s : State) :
    Host.Outcome State Fault Refusal :=
  vecWideIssue c cond 0x39 (rf vd) (rf va) (rf vb) km 1 true 0 (.vfsub c cond vd va vb km) s

/-- VFMUL (R208). -/
def execVfmul (c : CoreId) (cond : Cond) (vd va vb : Reg) (km : KReg) (s : State) :
    Host.Outcome State Fault Refusal :=
  vecWideIssue c cond 0x39 (rf vd) (rf va) (rf vb) km 2 true 0 (.vfmul c cond vd va vb km) s

/-- VFFMA (R208). -/
def execVffma (c : CoreId) (cond : Cond) (vd va vb : Reg) (km : KReg) (s : State) :
    Host.Outcome State Fault Refusal :=
  vecWideIssue c cond 0x39 (rf vd) (rf va) (rf vb) km 3 true 0 (.vffma c cond vd va vb km) s

/-- VFMIN (R208). -/
def execVfmin (c : CoreId) (cond : Cond) (vd va vb : Reg) (km : KReg) (s : State) :
    Host.Outcome State Fault Refusal :=
  vecWideIssue c cond 0x39 (rf vd) (rf va) (rf vb) km 4 true 0 (.vfmin c cond vd va vb km) s

/-- VFMAX (R208). -/
def execVfmax (c : CoreId) (cond : Cond) (vd va vb : Reg) (km : KReg) (s : State) :
    Host.Outcome State Fault Refusal :=
  vecWideIssue c cond 0x39 (rf vd) (rf va) (rf vb) km 5 true 0 (.vfmax c cond vd va vb km) s

/-- VFCMPEQ (R208). -/
def execVfcmpeq (c : CoreId) (cond : Cond) (kd : KReg) (va vb : Reg) (km : KReg) (s : State) :
    Host.Outcome State Fault Refusal :=
  vecWideIssue c cond 0x39 (kf kd) (rf va) (rf vb) km 6 true 0 (.vfcmpeq c cond kd va vb km) s

/-- VFCMPLT (R208). -/
def execVfcmplt (c : CoreId) (cond : Cond) (kd : KReg) (va vb : Reg) (km : KReg) (s : State) :
    Host.Outcome State Fault Refusal :=
  vecWideIssue c cond 0x39 (kf kd) (rf va) (rf vb) km 7 true 0 (.vfcmplt c cond kd va vb km) s

/-- VFCMPLE (R208). -/
def execVfcmple (c : CoreId) (cond : Cond) (kd : KReg) (va vb : Reg) (km : KReg) (s : State) :
    Host.Outcome State Fault Refusal :=
  vecWideIssue c cond 0x39 (kf kd) (rf va) (rf vb) km 8 true 0 (.vfcmple c cond kd va vb km) s

/-- VFCVTSW (R208). -/
def execVfcvtsw (c : CoreId) (cond : Cond) (vd va : Reg) (km : KReg) (s : State) :
    Host.Outcome State Fault Refusal :=
  vecWideIssue c cond 0x39 (rf vd) (rf va) 0 km 9 true 0 (.vfcvtsw c cond vd va km) s

/-- VFCVTWS (R208). -/
def execVfcvtws (c : CoreId) (cond : Cond) (vd va : Reg) (km : KReg) (s : State) :
    Host.Outcome State Fault Refusal :=
  vecWideIssue c cond 0x39 (rf vd) (rf va) 0 km 10 true 0 (.vfcvtws c cond vd va km) s

/-- VDADD (R209). -/
def execVdadd (c : CoreId) (cond : Cond) (vd va vb : Reg) (km : KReg) (s : State) :
    Host.Outcome State Fault Refusal :=
  vecWideIssue c cond 0x3A (rf vd) (rf va) (rf vb) km 0 (km != 0) 0 (.vdadd c cond vd va vb km) s

/-- VDSUB (R209). -/
def execVdsub (c : CoreId) (cond : Cond) (vd va vb : Reg) (km : KReg) (s : State) :
    Host.Outcome State Fault Refusal :=
  vecWideIssue c cond 0x3A (rf vd) (rf va) (rf vb) km 1 (km != 0) 0 (.vdsub c cond vd va vb km) s

/-- VDTST (R210). -/
def execVdtst (c : CoreId) (cond : Cond) (va : Reg) (km : KReg) (s : State) :
    Host.Outcome State Fault Refusal :=
  vecWideIssue c cond 0x3A 0 (rf va) 0 km 2 (km != 0) 0 (.vdtst c cond va km) s

/-- VDCMPEQ (R211). -/
def execVdcmpeq (c : CoreId) (cond : Cond) (kd : KReg) (va vb : Reg) (km : KReg) (s : State) :
    Host.Outcome State Fault Refusal :=
  vecWideIssue c cond 0x3A (kf kd) (rf va) (rf vb) km 3 (kd != km) 0 (.vdcmpeq c cond kd va vb km) s

/-- VDCMPLT (R211). -/
def execVdcmplt (c : CoreId) (cond : Cond) (kd : KReg) (va vb : Reg) (km : KReg) (s : State) :
    Host.Outcome State Fault Refusal :=
  vecWideIssue c cond 0x3A (kf kd) (rf va) (rf vb) km 4 (kd != km) 0 (.vdcmplt c cond kd va vb km) s

/-- VDSRR (R212). -/
def execVdsrr (c : CoreId) (cond : Cond) (vd va : Reg) (sh : BitVec 5) (km : KReg) (s : State) :
    Host.Outcome State Fault Refusal :=
  vecWideIssue c cond 0x3A (rf vd) (rf va) sh km 5 (km != 0) 0 (.vdsrr c cond vd va sh km) s

/-- VDSUM (R213). -/
def execVdsum (c : CoreId) (cond : Cond) (vd va : Reg) (km : KReg) (s : State) :
    Host.Outcome State Fault Refusal :=
  vecWideIssue c cond 0x3A (rf vd) (rf va) 0 km 6 (km != 0) 2 (.vdsum c cond vd va km) s

/-- VLD (R216). -/
def execVld (c : CoreId) (cond : Cond) (e : VElt) (vd gb : Reg) (km : KReg) (s : State) :
    Host.Outcome State Fault Refusal :=
  issue c (vecForm (vecFmt cond 0x3B (rf vd) (rf gb) (BitVec.ofNat 5 (eltCode e)) km 0) cond true) (vecMemBody c (.vld c cond e vd gb km) gb false) s

/-- VLDD (R216). -/
def execVldd (c : CoreId) (cond : Cond) (vd gb : Reg) (km : KReg) (s : State) :
    Host.Outcome State Fault Refusal :=
  issue c (vecForm (vecFmt cond 0x3B (rf vd) (rf gb) 0 km 1) cond true) (vecMemBody c (.vldd c cond vd gb km) gb false) s

/-- VST (R216). -/
def execVst (c : CoreId) (cond : Cond) (e : VElt) (vs gb : Reg) (km : KReg) (s : State) :
    Host.Outcome State Fault Refusal :=
  issue c (vecForm (vecFmt cond 0x3B (rf vs) (rf gb) (BitVec.ofNat 5 (eltCode e)) km 2) cond true) (vecMemBody c (.vst c cond e vs gb km) gb true) s

/-- VSTD (R216). -/
def execVstd (c : CoreId) (cond : Cond) (vs gb : Reg) (km : KReg) (s : State) :
    Host.Outcome State Fault Refusal :=
  issue c (vecForm (vecFmt cond 0x3B (rf vs) (rf gb) 0 km 3) cond true) (vecMemBody c (.vstd c cond vs gb km) gb true) s

/-- VGATHQ (R220). -/
def execVgathq (c : CoreId) (cond : Cond) (vd gb vi : Reg) (km : KReg) (s : State) :
    Host.Outcome State Fault Refusal :=
  gatherIssue c cond 4 { store := false, dec := false, width := 128, reg := vd, km := km } gb vi s

/-- VGATHD (R220). -/
def execVgathd (c : CoreId) (cond : Cond) (vd gb vi : Reg) (km : KReg) (s : State) :
    Host.Outcome State Fault Refusal :=
  gatherIssue c cond 5 { store := false, dec := true, width := 128, reg := vd, km := km } gb vi s

/-- VGATHW (R220). -/
def execVgathw (c : CoreId) (cond : Cond) (vd gb vi : Reg) (km : KReg) (s : State) :
    Host.Outcome State Fault Refusal :=
  gatherIssue c cond 6 { store := false, dec := false, width := 32, reg := vd, km := km } gb vi s

/-- VSCATQ (R220). -/
def execVscatq (c : CoreId) (cond : Cond) (vs gb vi : Reg) (km : KReg) (s : State) :
    Host.Outcome State Fault Refusal :=
  gatherIssue c cond 7 { store := true, dec := false, width := 128, reg := vs, km := km } gb vi s

/-- VSCATD (R220). -/
def execVscatd (c : CoreId) (cond : Cond) (vs gb vi : Reg) (km : KReg) (s : State) :
    Host.Outcome State Fault Refusal :=
  gatherIssue c cond 8 { store := true, dec := true, width := 128, reg := vs, km := km } gb vi s

/-- VSCATW (R220). -/
def execVscatw (c : CoreId) (cond : Cond) (vs gb vi : Reg) (km : KReg) (s : State) :
    Host.Outcome State Fault Refusal :=
  gatherIssue c cond 9 { store := true, dec := false, width := 32, reg := vs, km := km } gb vi s

/-- VTRB (R214). -/
def execVtrb (c : CoreId) (cond : Cond) (vd va vb : Reg) (km : KReg) (s : State) :
    Host.Outcome State Fault Refusal :=
  issue c (vecForm (vecFmt cond 0x3B (rf vd) (rf va) (rf vb) km 10) cond true) (vecBody c (.vtrb c cond vd va vb km) (vecPlain c 0 2)) s

/-- VSPLAT (R215). -/
def execVsplat (c : CoreId) (cond : Cond) (e : VElt) (vd ga : Reg) (km : KReg) (s : State) :
    Host.Outcome State Fault Refusal :=
  issue c (vecForm (vecFmt cond 0x3B (rf vd) (rf ga) (BitVec.ofNat 5 (eltCode e)) km 11) cond true)
    (vecBody c (.vsplat c cond e vd ga km) fun s => { vecPlain c 0 2 s with op := (s.core c).reg ga }) s

/-- VMOVG (R215). -/
def execVmovg (c : CoreId) (cond : Cond) (gd va : Reg) (s : State) :
    Host.Outcome State Fault Refusal :=
  vecMoveIssue c cond (rf gd) (rf va) 0 0 12 0 (.vmovg c cond gd va) s

/-- VMOVW (R215). -/
def execVmovw (c : CoreId) (cond : Cond) (vd ga : Reg) (s : State) :
    Host.Outcome State Fault Refusal :=
  vecMoveIssue c cond (rf vd) (rf ga) 0 0 13 ga (.vmovw c cond vd ga) s

/-- KAND (R200). -/
def execKand (c : CoreId) (cond : Cond) (kd ka kb : KReg) (s : State) :
    Host.Outcome State Fault Refusal :=
  vecMoveIssue c cond (kf kd) (kf ka) (kf kb) 0 14 0 (.kand c cond kd ka kb) s

/-- KOR (R200). -/
def execKor (c : CoreId) (cond : Cond) (kd ka kb : KReg) (s : State) :
    Host.Outcome State Fault Refusal :=
  vecMoveIssue c cond (kf kd) (kf ka) (kf kb) 1 14 0 (.kor c cond kd ka kb) s

/-- KXOR (R200). -/
def execKxor (c : CoreId) (cond : Cond) (kd ka kb : KReg) (s : State) :
    Host.Outcome State Fault Refusal :=
  vecMoveIssue c cond (kf kd) (kf ka) (kf kb) 2 14 0 (.kxor c cond kd ka kb) s

/-- KANDN (R200). -/
def execKandn (c : CoreId) (cond : Cond) (kd ka kb : KReg) (s : State) :
    Host.Outcome State Fault Refusal :=
  vecMoveIssue c cond (kf kd) (kf ka) (kf kb) 3 14 0 (.kandn c cond kd ka kb) s

/-- KNOT (R200). -/
def execKnot (c : CoreId) (cond : Cond) (kd ka : KReg) (s : State) :
    Host.Outcome State Fault Refusal :=
  vecMoveIssue c cond (kf kd) (kf ka) 0 4 14 0 (.knot c cond kd ka) s

/-- KMOVG (R200). -/
def execKmovg (c : CoreId) (cond : Cond) (gd : Reg) (ka : KReg) (q : BitVec 2) (s : State) :
    Host.Outcome State Fault Refusal :=
  vecMoveIssue c cond (rf gd) (kf ka) (q.setWidth 5) 5 14 0 (.kmovg c cond gd ka q) s

/-- KMOVK (R200). -/
def execKmovk (c : CoreId) (cond : Cond) (kd : KReg) (ga : Reg) (q : BitVec 2) (s : State) :
    Host.Outcome State Fault Refusal :=
  vecMoveIssue c cond (kf kd) (rf ga) (q.setWidth 5) 6 14 ga (.kmovk c cond kd ga q) s

end Sys2Proof.Machine
end

