-- ==== Sys2Proof/Machine/Perform.lean ====
section
/-! DEFINITION. The store buffer's drain (R73), the perform cycles of what cores have sent to the fabric (R255-R260), the
completion of global loads and block reads (R59, R256, R259), and scrub (R262-R269). -/
namespace Sys2Proof.Machine

/-! ## The store buffer (R73) -/

/-- The cycle in which an entry drains, none while a vector memory instruction holds it up (R73). -/
def drainCycle (ms : MemSide) (e : SbEntry) (now : Nat) : Option Nat :=
  if ms.vq.any (fun v => v.isMem) || !ms.vloads.isEmpty then none
  else
    let after := (ms.vdone.filter fun d => d.isMem).foldl (fun m d => max m (d.last + 1)) 0
    some (drainFrom ms e (max now after))

/-- STORE_BUFFER_DRAIN (R73): the oldest entry that waits drains into LDS in the first cycle in which it can. -/
def execStoreBufferDrain (c : CoreId) (s : State) : Host.Outcome State Fault Refusal :=
  let ms := (s.core c).ms
  match ms.storeBuf.find? fun e => e.drained.isNone with
  | none => .next s
  | some e =>
    match drainCycle ms e s.now with
    | none => .next s
    | some t => .next (drainEntry c e t (settle t s))

/-! ## Accesses performed (R255-R260) -/

/-- What a part of a load has brought, given to the load. -/
def takePart (c : CoreId) (lid off : Nat) (bs : List Byte) (tag : Bool) (bad : Option Nat) (s : State) : State :=
  s.modMs c fun m =>
    { m with gloads := m.gloads.map fun g =>
      if g.lid = lid then
        { g with data := overlay g.data off bs, tag := tag,
                 bad := match g.bad with | some w => some w | none => bad.map (BitVec.ofNat 52) }
      else g }

/-- A block read in the current cycle: the bytes from its address to the end of its 64-byte block (R259). -/
def performRead (c : CoreId) (bid a : Nat) (s : State) : State :=
  let n := 64 - a % 64
  let bad := eccHit s a n
  let s := softRead a n s
  let data := s.bytes a n
  (markFrames s a n false).modMs c fun m =>
    { m with blocks := m.blocks.map fun b => if b.bid = bid then { b with data := some data, bad := bad } else b }

/-- One request performed in the current cycle (R255, R256, R259). -/
def performReq (c : CoreId) (r : FabricReq) (s : State) : State :=
  let control := within r.addr 1 ctlBase ctlSize
  match r.kind with
  | .load lid off len =>
    if control then
      let (bs, tag, s) := csRead false (r.addr - ctlBase) len s
      takePart c lid off bs tag none s
    else if absentWindow s r.addr then takePart c lid off (List.replicate len 0) false none s
    else
      let s := softRead r.addr len s
      let s := takePart c lid off (s.bytes r.addr len) (tagGet s r.addr) (eccHit s r.addr len) s
      markFrames s r.addr len false
  | .store bs tag =>
    if control then csWrite (if r.base then .base else .native true) (some (c, r.seq)) (r.addr - ctlBase) bs (tag.getD false) s
    else performStore r.addr bs tag s
  | .blockRead bid => performRead c bid r.addr s
  | .blockWrite bs => performBlock r.addr bs s

/-- A request taken out of those sent. -/
def dropReq (c : CoreId) (r : FabricReq) (s : State) : State :=
  s.modMs c fun m => { m with freqs := m.freqs.filter fun x => x.order ≠ r.order }

/-- The earliest perform cycle of what a core has sent. -/
def nextPerform : List FabricReq → Option Nat
  | [] => none
  | r :: l => match nextPerform l with
    | some d => some (min r.due d)
    | none => some r.due

/-- Whether a request goes to control space. -/
def FabricReq.control (r : FabricReq) : Bool := within r.addr 1 ctlBase ctlSize

/-- A request of core c performed; a write through a window stands over those of its cycle through the core's own port (R245). -/
def performNow (c : CoreId) (r : FabricReq) (s : State) : State :=
  let s := match r.kind with
    | .store _ _ => if touchesWindow r.addr 1 then settlePort s else s
    | .blockWrite _ => if touchesWindow r.addr 1 then settlePort s else s
    | _ => s
  performReq c r (dropReq c r s)

/-- The requests of cycle d to control space that cores below core c hold, performed in ascending core number (R259, R440). -/
def lowerFirst (c : CoreId) (d : Nat) (s : State) : State :=
  (allCores.filter fun j => decide (j < c)).foldl (fun s (j : CoreId) =>
    ((s.core j).ms.freqs.filter fun r => decide (r.due = d) && r.control).foldl (fun s r => performNow j r s) s) s

/-- GLOBAL_ACCESS_PERFORM (R255): in the next perform cycle of core c, every request that it holds for that cycle is
performed, in the order of issue; several cores' requests to control space in ascending core number (R259). -/
def execGlobalAccessPerform (c : CoreId) (s : State) : Host.Outcome State Fault Refusal :=
  match nextPerform (s.core c).ms.freqs with
  | none => .next s
  | some d =>
    let s := settle (max s.now d) s
    let group := (s.core c).ms.freqs.filter fun r => r.due = d
    let s := if group.any FabricReq.control then lowerFirst c d s else s
    .next (group.foldl (fun s r => performNow c r s) s)

/-- The load of eight bytes at an offset of control space that core c has sent, or that it sends now; it is performed
(R440, R516). -/
def loadRegister (c : CoreId) (o : Nat) (gd : Reg) (s : State) : State :=
  let a := ctlBase + o
  let sent (s : State) : Option FabricReq := (s.core c).ms.freqs.find? fun r =>
    match r.kind with | .load _ _ len => overlaps r.addr len a 8 | _ => false
  let s := if (sent s).isSome || !runs s c then s
    else sendLoad c s.now a 8 (.reg gd false) 0 (s.core c).atBase s
  match sent s with
  | none => s
  | some r => performNow c r (lowerFirst c r.due (settle (max s.now r.due) s))

/-- ARRIVE (R440): a core's load of ARRIVE of ring r is performed. -/
def execArrive (c : CoreId) (r : RingId) (gd : Reg) (s : State) : Host.Outcome State Fault Refusal :=
  .next (loadRegister c (0x500018 + 0x100 * r.val) gd s)

/-- UARTRX (R516): a core's load of UARTRX is performed. -/
def execUartrx (c : CoreId) (gd : Reg) (s : State) : Host.Outcome State Fault Refusal :=
  .next (loadRegister c 0x600308 gd s)

/-! ## What returns (R59, R88, R256, R259) -/

/-- The load of a list that completes first: the earliest cycle, and there the first issued. -/
def firstLoad : List GLoad → Option GLoad
  | [] => none
  | g :: l => match firstLoad l with
    | some x => if x.due < g.due then some x else some g
    | none => some g

/-- Whether a load of the odd core still needs what a load of the even core brings (R88). -/
def twinWaits (s : State) (c : CoreId) : Bool :=
  let p := s.pair (pairOf c)
  let odd := (s.core (oddCore (pairOf c))).ms
  decide (c.val % 2 = 0) &&
  decide ((p.loadQ.filter fun x => x.1.length ≠ 64).length < (odd.gloads.filter fun g => g.twin).length)

/-- Whether a block read has a request that is not performed. -/
def blockSent (ms : MemSide) (b : BlockRead) : Bool :=
  b.data.isSome || ms.freqs.any fun r => match r.kind with | .blockRead n => n == b.bid | _ => false

/-- The same for block reads. -/
def twinBlocksWait (s : State) (c : CoreId) : Bool :=
  let p := s.pair (pairOf c)
  let odd := (s.core (oddCore (pairOf c))).ms
  decide (c.val % 2 = 0) &&
  decide ((p.loadQ.filter fun x => x.1.length = 64).length < (odd.blocks.filter fun b => !blockSent odd b).length)

/-- What the even core has received goes to the odd core too. -/
def passOn (c : CoreId) (bs : List Byte) (tag : Bool) (s : State) : State :=
  s.modPair (pairOf c) fun p => { p with loadQ := p.loadQ ++ [(bs, tag)] }

/-- The first of the values passed on that a test names, taken out. -/
def takePassed (c : CoreId) (p : List Byte → Bool) (s : State) : Option (List Byte × Bool) × State :=
  let q := (s.pair (pairOf c)).loadQ
  match q.find? fun x => p x.1 with
  | some x => (some x, s.modPair (pairOf c) fun r => { r with loadQ := r.loadQ.erase x })
  | none => (none, s)

/-- The result of a completed load is written, visible from its cycle on (R60, R142, R146). -/
def deliverLoad (c : CoreId) (g : GLoad) (bs : List Byte) (tag : Bool) (s : State) : State :=
  match g.dest with
  | .dec d => decLoadCause c d (d.out bs) (writeDec c g.due d.gd (d.out bs) s)
  | dest =>
    match loadValue s dest bs tag with
    | some (r, v) => if r = 0 then s else pushAt c g.due g.seq (.reg r v) s
    | none => s

/-- GLOBAL_LOAD_COMPLETE (R59, R256, R268): the load of core c that completes first, once its parts have been performed. A
load that met an uncorrectable error writes nothing. -/
def execGlobalLoadComplete (c : CoreId) (s : State) : Host.Outcome State Fault Refusal :=
  let ms := (s.core c).ms
  match firstLoad ms.gloads with
  | none => .next s
  | some g =>
    let open_ := ms.freqs.any fun r => match r.kind with | .load lid _ _ => lid == g.lid | _ => false
    if open_ then .next s
    else
      let (got, s1) := if g.twin then takePassed c (fun b => b.length ≠ 64) s else (some (g.data, g.tag), s)
      match got with
      | none => .next s
      | some (bs, tag) =>
        let s := settle (max s1.now g.due) s1
        let s := s.modMs c fun m => { m with gloads := m.gloads.filter fun x => x.lid ≠ g.lid }
        let s := if twinWaits s c then passOn c (if g.bad.isSome then [] else bs) tag s else s
        match g.bad with
        | some w => .next (consumedEcc c g.due 2 w.toNat s)
        | none => if g.twin && bs.isEmpty then .next s else .next (deliverLoad c g bs tag s)

/-- BLOCK_READ_RETURN (R167, R218, R259): the oldest block read of core c returns, 104 cc after it was sent. -/
def execBlockReadReturn (c : CoreId) (s : State) : Host.Outcome State Fault Refusal :=
  let ms := (s.core c).ms
  match ms.blocks with
  | [] => .next s
  | b :: _ =>
    let got (s : State) : Option (List Byte) × State :=
      match b.data with
      | some d => (some d, s)
      | none =>
        if blockSent ms b then (none, s)
        else
          let (x, s) := takePassed c (fun l => l.length = 64) s
          (x.map fun y => y.1.drop (b.addr % 64), s)
    match got s with
    | (none, _) => .next s
    | (some d, s) =>
      let s := settle (max s.now (b.sent + 104)) s
      let s := s.modMs c fun m => { m with blocks := m.blocks.filter fun x => x.bid ≠ b.bid }
      let s := if twinBlocksWait s c then passOn c (List.replicate (b.addr % 64) 0 ++ d) false s else s
      .next (if b.toVec then vecReturn c b d s else mvblReturn c b d s)

/-! ## Scrub (R262-R269) -/

/-- SCRUB_ROW_DUE (R262, R264): every scrubber makes its next row due. -/
def execScrubRowDue (s : State) : Host.Outcome State Fault Refusal :=
  if !s.slath.scrubEn then .next s
  else
    let f := s.slath.lastDue + scrubInterval s
    let s := settle (max s.now (2 * f)) s
    .next (modSlath (fun x =>
      { x with lastDue := f, units := x.units.map fun u => { u with dueRows := u.dueRows + 1, since := if u.dueRows = 0 then f else u.since } }) s)

/-- SCRUBBER_STARVED (R263): a row has been due for 1,000,000,000 fabric cycles. -/
def execScrubberStarved (u : ScrubberId) (s : State) : Host.Outcome State Fault Refusal :=
  let x := s.slath.units[u]
  if x.dueRows = 0 || x.starved || !s.slath.scrubEn || !scrubPresent s u then .next s
  else
    let s := settle (max s.now (2 * (x.since + 1000000000))) s
    .next (modSlath (fun y => { y with starveCnt := satAdd y.starveCnt 1, units := y.units.set u { x with starved := true } }) s)

/-- The phase B in which a scrubber is granted its row: the next one in which no other request is pending at its bank or port, or one that
it claims as starved (R261, R263). -/
def scrubSlot (u : ScrubberId) : Nat → State → State
  | 0, s => s
  | n + 1, s =>
    let f := s.now / 2
    let s := settle (2 * f + 1) s
    let waits := s.bg.any fun r => bgPort r.addr == some u.val && bgPending s f r
    if !phaseUsed s f u.val && (scrubClaims s f u.val || !waits) then usePhase f u.val (scrubRow u s)
    else scrubSlot u n (settle (2 * f + 2) s)

/-- SCRUB_ROW (R261, R262, R266, R269): upsets that have come about since the last command, and then the oldest row due of a scrubber is
granted and scrubbed. -/
def execScrubRow (u : ScrubberId) (upsets : List Upset) (s : State) : Host.Outcome State Fault Refusal :=
  let s := upsets.foldl (fun s x => upset x s) s
  if (s.slath.units[u]).dueRows = 0 || !scrubPresent s u then .next s else .next (scrubSlot u 2048 s)

end Sys2Proof.Machine
end

