-- ==== Sys2Proof/Machine/System.lean ====
section
/-! DEFINITION. MFS and MTS over every system register (R121-R126, R81, R89) and the moves through the data port
(R462, R464). -/
namespace Sys2Proof.Machine

/-- The system registers that both cores of a pair read once (R89). -/
def sysShared (sr : BitVec 6) : Bool := sr == 0x0C || sr == 0x0D || sr == 0x0E

/-- The form of MFS and MTS: an unlisted number, or a BL register outside base level, is ILLEGAL (R122). -/
def sysForm (s : State) (c : CoreId) (cond : Cond) (g : Reg) (sr : BitVec 6) (fn : BitVec 5) : Form :=
  { word := sysFmt cond g sr fn, cond := cond, legal := sysListed sr && (!sysBL sr || (s.core c).atBase),
    banned := fn == 2 && sr == 0 }

/-- MFS of a system register (R122, R464). -/
def mfsBody (c : CoreId) (g : Reg) (sr : BitVec 6) (t : Nat) (s : State) : Body :=
  match needPcc (s.core c) permSYSREG with
  | some q => .trap q 0 s
  | none =>
    if sr = 0x16 then dpReadBody c g t s
    else
      let v := sysRead s c sr
      let s := if sr = 0x0E then (taiRead s).2 else s
      if sysShared sr then
        let (x, s) := sharedValue c v.val s
        .done 1 (pushReg c (t + 1) g x s)
      else .done 1 (pushCap c (t + 1) g v s)

/-- Whether a system register keeps a tag (R123, R124). -/
def sysIsCap (sr : BitVec 6) : Bool := [0x02, 0x06, 0x07, 0x08, 0x14].contains sr

/-- MTS of a system register: STATUS through the mode shadow, DPCTL with GO as a burst, any other at distance 2. FPFLAGS
is written in cycle t + 2 before the flags that fall in it, and an MFS sees that from t + 3 on (R56, R81, R122, R123, R233,
R462). -/
def mtsBody (c : CoreId) (g : Reg) (sr : BitVec 6) (t : Nat) (s : State) : Body :=
  let k := s.core c
  match needPcc k permSYSREG with
  | some q => .trap q 0 s
  | none =>
    let v := k.reg g
    if sr = 0x00 then .done 1 (s.modSeq c fun q => { q with shadow := some { value := v.val.setWidth 32, left := 3 } })
    else if sr = 0x15 && v.val.getLsbD 31 then dpGoBody c t v s
    else if sr = 0x12 then .done 1 (pushAt c (t + 3) 0 (.sys sr (TWord.plain v.val)) s)
    else .done 1 (push c (t + 2) (.sys sr (if sysIsCap sr then v else TWord.plain v.val)) s)

/-- MFS (R122). -/
def execMfs (c : CoreId) (cond : Cond) (g : Reg) (sr : BitVec 6) (s : State) : Host.Outcome State Fault Refusal :=
  issue c (sysForm s c cond g sr 1) (mfsBody c g sr) s

/-- MTS (R122). -/
def execMts (c : CoreId) (cond : Cond) (g : Reg) (sr : BitVec 6) (s : State) : Host.Outcome State Fault Refusal :=
  issue c (sysForm s c cond g sr 2) (mtsBody c g sr) s

/-- DPCTL_GO: the MTS of DPCTL whose register holds GO = 1 (R462); with GO = 0 it is the plain MTS. -/
def execDpctlGo (c : CoreId) (cond : Cond) (g : Reg) (s : State) : Host.Outcome State Fault Refusal :=
  issue c (sysForm s c cond g 0x15 2) (mtsBody c g 0x15) s

/-- DPDATA_READ: the MFS of DPDATA (R464). -/
def execDpdataRead (c : CoreId) (cond : Cond) (g : Reg) (s : State) : Host.Outcome State Fault Refusal :=
  issue c (sysForm s c cond g 0x16 1) (mfsBody c g 0x16) s

/-- DPDATA_WRITE: the MTS of DPDATA (R464). -/
def execDpdataWrite (c : CoreId) (cond : Cond) (g : Reg) (s : State) : Host.Outcome State Fault Refusal :=
  issue c (sysForm s c cond g 0x16 2) (mtsBody c g 0x16) s

end Sys2Proof.Machine
end

