-- ==== Sys2Proof/Machine/Dispatch.lean ====
section
/-! DEFINITION. One arm for each command: the meaning that the spec gives it. -/
namespace Sys2Proof.Machine

/-- The effect of a command on everything but the queue. -/
def exec (i : Instr) (s : State) : Host.Outcome State Fault Refusal :=
  match i with
  | .add c cond w gd ga gb => Sys2Proof.Machine.execAdd c cond w gd ga gb s
  | .sub c cond w gd ga gb => Sys2Proof.Machine.execSub c cond w gd ga gb s
  | .adc c cond w gd ga gb => Sys2Proof.Machine.execAdc c cond w gd ga gb s
  | .sbc c cond w gd ga gb => Sys2Proof.Machine.execSbc c cond w gd ga gb s
  | .neg c cond w gd gb => Sys2Proof.Machine.execNeg c cond w gd gb s
  | .and c cond w gd ga gb => Sys2Proof.Machine.execAnd c cond w gd ga gb s
  | .or c cond w gd ga gb => Sys2Proof.Machine.execOr c cond w gd ga gb s
  | .xor c cond w gd ga gb => Sys2Proof.Machine.execXor c cond w gd ga gb s
  | .andn c cond w gd ga gb => Sys2Proof.Machine.execAndn c cond w gd ga gb s
  | .cmp c cond w ga gb => Sys2Proof.Machine.execCmp c cond w ga gb s
  | .tst c cond w ga gb => Sys2Proof.Machine.execTst c cond w ga gb s
  | .sll c cond w gd ga gb => Sys2Proof.Machine.execSll c cond w gd ga gb s
  | .srl c cond w gd ga gb => Sys2Proof.Machine.execSrl c cond w gd ga gb s
  | .sra c cond w gd ga gb => Sys2Proof.Machine.execSra c cond w gd ga gb s
  | .rol c cond w gd ga gb => Sys2Proof.Machine.execRol c cond w gd ga gb s
  | .ror c cond w gd ga gb => Sys2Proof.Machine.execRor c cond w gd ga gb s
  | .clz c cond w gd ga => Sys2Proof.Machine.execClz c cond w gd ga s
  | .popc c cond w gd ga => Sys2Proof.Machine.execPopc c cond w gd ga s
  | .addi c cond w gd ga imm => Sys2Proof.Machine.execAddi c cond w gd ga imm s
  | .subi c cond w gd ga imm => Sys2Proof.Machine.execSubi c cond w gd ga imm s
  | .andi c cond w gd ga imm => Sys2Proof.Machine.execAndi c cond w gd ga imm s
  | .ori c cond w gd ga imm => Sys2Proof.Machine.execOri c cond w gd ga imm s
  | .xori c cond w gd ga imm => Sys2Proof.Machine.execXori c cond w gd ga imm s
  | .cmpi c cond w ga imm => Sys2Proof.Machine.execCmpi c cond w ga imm s
  | .slli c cond w gd ga amt => Sys2Proof.Machine.execSlli c cond w gd ga amt s
  | .srli c cond w gd ga amt => Sys2Proof.Machine.execSrli c cond w gd ga amt s
  | .srai c cond w gd ga amt => Sys2Proof.Machine.execSrai c cond w gd ga amt s
  | .roli c cond w gd ga amt => Sys2Proof.Machine.execRoli c cond w gd ga amt s
  | .rori c cond w gd ga amt => Sys2Proof.Machine.execRori c cond w gd ga amt s
  | .mul c cond w gd ga gb => Sys2Proof.Machine.execMul c cond w gd ga gb s
  | .mulu c cond w gd ga gb => Sys2Proof.Machine.execMulu c cond w gd ga gb s
  | .mulh c cond w gd ga gb => Sys2Proof.Machine.execMulh c cond w gd ga gb s
  | .mulhu c cond w gd ga gb => Sys2Proof.Machine.execMulhu c cond w gd ga gb s
  | .div c cond w gd ga gb => Sys2Proof.Machine.execDiv c cond w gd ga gb s
  | .divu c cond w gd ga gb => Sys2Proof.Machine.execDivu c cond w gd ga gb s
  | .rem c cond w gd ga gb => Sys2Proof.Machine.execRem c cond w gd ga gb s
  | .remu c cond w gd ga gb => Sys2Proof.Machine.execRemu c cond w gd ga gb s
  | .dsteps c cond w gd ga gb => Sys2Proof.Machine.execDsteps c cond w gd ga gb s
  | .dstepsu c cond w gd ga gb => Sys2Proof.Machine.execDstepsu c cond w gd ga gb s
  | .dstep c cond w gd gb => Sys2Proof.Machine.execDstep c cond w gd gb s
  | .dstepu c cond w gd gb => Sys2Proof.Machine.execDstepu c cond w gd gb s
  | .dstepf c cond w gd => Sys2Proof.Machine.execDstepf c cond w gd s
  | .ldb c cond g gb off => Sys2Proof.Machine.execLdb c cond g gb off s
  | .ldbu c cond g gb off => Sys2Proof.Machine.execLdbu c cond g gb off s
  | .ldh c cond g gb off => Sys2Proof.Machine.execLdh c cond g gb off s
  | .ldhu c cond g gb off => Sys2Proof.Machine.execLdhu c cond g gb off s
  | .ldw c cond g gb off => Sys2Proof.Machine.execLdw c cond g gb off s
  | .ldwu c cond g gb off => Sys2Proof.Machine.execLdwu c cond g gb off s
  | .ldd c cond g gb off => Sys2Proof.Machine.execLdd c cond g gb off s
  | .lddu c cond g gb off => Sys2Proof.Machine.execLddu c cond g gb off s
  | .ldq c cond g gb off => Sys2Proof.Machine.execLdq c cond g gb off s
  | .ldcap c cond g gb off => Sys2Proof.Machine.execLdcap c cond g gb off s
  | .stb c cond g gb off => Sys2Proof.Machine.execStb c cond g gb off s
  | .sth c cond g gb off => Sys2Proof.Machine.execSth c cond g gb off s
  | .stw c cond g gb off => Sys2Proof.Machine.execStw c cond g gb off s
  | .std c cond g gb off => Sys2Proof.Machine.execStd c cond g gb off s
  | .stq c cond g gb off => Sys2Proof.Machine.execStq c cond g gb off s
  | .stcap c cond g gb off => Sys2Proof.Machine.execStcap c cond g gb off s
  | .b c cond disp => Sys2Proof.Machine.execB c cond disp s
  | .bl c cond disp => Sys2Proof.Machine.execBl c cond disp s
  | .br c cond gb => Sys2Proof.Machine.execBr c cond gb s
  | .brl c cond gb => Sys2Proof.Machine.execBrl c cond gb s
  | .nop c cond => Sys2Proof.Machine.execNop c cond s
  | .mfs c cond g sr => Sys2Proof.Machine.execMfs c cond g sr s
  | .mts c cond g sr => Sys2Proof.Machine.execMts c cond g sr s
  | .svc c cond code => Sys2Proof.Machine.execSvc c cond code s
  | .basecall c cond code => Sys2Proof.Machine.execBasecall c cond code s
  | .xret c cond => Sys2Proof.Machine.execXret c cond s
  | .imm c cond value => Sys2Proof.Machine.execImm c cond value s
  | .rpt c cond gc => Sys2Proof.Machine.execRpt c cond gc s
  | .dadd c cond gd ga gb => Sys2Proof.Machine.execDadd c cond gd ga gb s
  | .dsub c cond gd ga gb => Sys2Proof.Machine.execDsub c cond gd ga gb s
  | .dmul c cond gd ga gb => Sys2Proof.Machine.execDmul c cond gd ga gb s
  | .ddiv c cond gd ga gb => Sys2Proof.Machine.execDdiv c cond gd ga gb s
  | .dcmp c cond ga gb => Sys2Proof.Machine.execDcmp c cond ga gb s
  | .dtst c cond ga => Sys2Proof.Machine.execDtst c cond ga s
  | .dcvb c cond w gd ga => Sys2Proof.Machine.execDcvb c cond w gd ga s
  | .dcvd c cond w gd ga => Sys2Proof.Machine.execDcvd c cond w gd ga s
  | .dsrr c cond gd ga sh rmo => Sys2Proof.Machine.execDsrr c cond gd ga sh rmo s
  | .dld c cond g gb lm1 off => Sys2Proof.Machine.execDld c cond g gb lm1 off s
  | .dst c cond g gb lm1 off => Sys2Proof.Machine.execDst c cond g gb lm1 off s
  | .daddm c cond g gb lm1 off => Sys2Proof.Machine.execDaddm c cond g gb lm1 off s
  | .dsubm c cond g gb lm1 off => Sys2Proof.Machine.execDsubm c cond g gb lm1 off s
  | .pack c cond g gb nm1 off => Sys2Proof.Machine.execPack c cond g gb nm1 off s
  | .unpk c cond g gb nm1 off => Sys2Proof.Machine.execUnpk c cond g gb nm1 off s
  | .mvb c cond gd ga gb => Sys2Proof.Machine.execMvb c cond gd ga gb s
  | .mvbl c cond gd ga gb => Sys2Proof.Machine.execMvbl c cond gd ga gb s
  | .clcb c cond gd ga gb => Sys2Proof.Machine.execClcb c cond gd ga gb s
  | .scb c cond gd ga gb => Sys2Proof.Machine.execScb c cond gd ga gb s
  | .trb c cond gd ga gb => Sys2Proof.Machine.execTrb c cond gd ga gb s
  | .trt c cond gd ga gb => Sys2Proof.Machine.execTrt c cond gd ga gb s
  | .u8v c cond mode gd ga gb => Sys2Proof.Machine.execU8v c cond mode gd ga gb s
  | .edb c cond gd ga gb => Sys2Proof.Machine.execEdb c cond gd ga gb s
  | .edm c cond gd ga gb => Sys2Proof.Machine.execEdm c cond gd ga gb s
  | .fldw c cond gd ga gb => Sys2Proof.Machine.execFldw c cond gd ga gb s
  | .vadd c cond e vd va vb km => Sys2Proof.Machine.execVadd c cond e vd va vb km s
  | .vsub c cond e vd va vb km => Sys2Proof.Machine.execVsub c cond e vd va vb km s
  | .vmul c cond e vd va vb km => Sys2Proof.Machine.execVmul c cond e vd va vb km s
  | .vand c cond e vd va vb km => Sys2Proof.Machine.execVand c cond e vd va vb km s
  | .vor c cond e vd va vb km => Sys2Proof.Machine.execVor c cond e vd va vb km s
  | .vxor c cond e vd va vb km => Sys2Proof.Machine.execVxor c cond e vd va vb km s
  | .vsll c cond e vd va vb km => Sys2Proof.Machine.execVsll c cond e vd va vb km s
  | .vsrl c cond e vd va vb km => Sys2Proof.Machine.execVsrl c cond e vd va vb km s
  | .vsra c cond e vd va vb km => Sys2Proof.Machine.execVsra c cond e vd va vb km s
  | .vmin c cond e vd va vb km => Sys2Proof.Machine.execVmin c cond e vd va vb km s
  | .vmax c cond e vd va vb km => Sys2Proof.Machine.execVmax c cond e vd va vb km s
  | .vminu c cond e vd va vb km => Sys2Proof.Machine.execVminu c cond e vd va vb km s
  | .vmaxu c cond e vd va vb km => Sys2Proof.Machine.execVmaxu c cond e vd va vb km s
  | .vcmpeq c cond e kd va vb km => Sys2Proof.Machine.execVcmpeq c cond e kd va vb km s
  | .vcmplt c cond e kd va vb km => Sys2Proof.Machine.execVcmplt c cond e kd va vb km s
  | .vcmpltu c cond e kd va vb km => Sys2Proof.Machine.execVcmpltu c cond e kd va vb km s
  | .vfadd c cond vd va vb km => Sys2Proof.Machine.execVfadd c cond vd va vb km s
  | .vfsub c cond vd va vb km => Sys2Proof.Machine.execVfsub c cond vd va vb km s
  | .vfmul c cond vd va vb km => Sys2Proof.Machine.execVfmul c cond vd va vb km s
  | .vffma c cond vd va vb km => Sys2Proof.Machine.execVffma c cond vd va vb km s
  | .vfmin c cond vd va vb km => Sys2Proof.Machine.execVfmin c cond vd va vb km s
  | .vfmax c cond vd va vb km => Sys2Proof.Machine.execVfmax c cond vd va vb km s
  | .vfcmpeq c cond kd va vb km => Sys2Proof.Machine.execVfcmpeq c cond kd va vb km s
  | .vfcmplt c cond kd va vb km => Sys2Proof.Machine.execVfcmplt c cond kd va vb km s
  | .vfcmple c cond kd va vb km => Sys2Proof.Machine.execVfcmple c cond kd va vb km s
  | .vfcvtsw c cond vd va km => Sys2Proof.Machine.execVfcvtsw c cond vd va km s
  | .vfcvtws c cond vd va km => Sys2Proof.Machine.execVfcvtws c cond vd va km s
  | .vdadd c cond vd va vb km => Sys2Proof.Machine.execVdadd c cond vd va vb km s
  | .vdsub c cond vd va vb km => Sys2Proof.Machine.execVdsub c cond vd va vb km s
  | .vdtst c cond va km => Sys2Proof.Machine.execVdtst c cond va km s
  | .vdcmpeq c cond kd va vb km => Sys2Proof.Machine.execVdcmpeq c cond kd va vb km s
  | .vdcmplt c cond kd va vb km => Sys2Proof.Machine.execVdcmplt c cond kd va vb km s
  | .vdsrr c cond vd va sh km => Sys2Proof.Machine.execVdsrr c cond vd va sh km s
  | .vdsum c cond vd va km => Sys2Proof.Machine.execVdsum c cond vd va km s
  | .vld c cond e vd gb km => Sys2Proof.Machine.execVld c cond e vd gb km s
  | .vldd c cond vd gb km => Sys2Proof.Machine.execVldd c cond vd gb km s
  | .vst c cond e vs gb km => Sys2Proof.Machine.execVst c cond e vs gb km s
  | .vstd c cond vs gb km => Sys2Proof.Machine.execVstd c cond vs gb km s
  | .vgathq c cond vd gb vi km => Sys2Proof.Machine.execVgathq c cond vd gb vi km s
  | .vgathd c cond vd gb vi km => Sys2Proof.Machine.execVgathd c cond vd gb vi km s
  | .vgathw c cond vd gb vi km => Sys2Proof.Machine.execVgathw c cond vd gb vi km s
  | .vscatq c cond vs gb vi km => Sys2Proof.Machine.execVscatq c cond vs gb vi km s
  | .vscatd c cond vs gb vi km => Sys2Proof.Machine.execVscatd c cond vs gb vi km s
  | .vscatw c cond vs gb vi km => Sys2Proof.Machine.execVscatw c cond vs gb vi km s
  | .vtrb c cond vd va vb km => Sys2Proof.Machine.execVtrb c cond vd va vb km s
  | .vsplat c cond e vd ga km => Sys2Proof.Machine.execVsplat c cond e vd ga km s
  | .vmovg c cond gd va => Sys2Proof.Machine.execVmovg c cond gd va s
  | .vmovw c cond vd ga => Sys2Proof.Machine.execVmovw c cond vd ga s
  | .kand c cond kd ka kb => Sys2Proof.Machine.execKand c cond kd ka kb s
  | .kor c cond kd ka kb => Sys2Proof.Machine.execKor c cond kd ka kb s
  | .kxor c cond kd ka kb => Sys2Proof.Machine.execKxor c cond kd ka kb s
  | .kandn c cond kd ka kb => Sys2Proof.Machine.execKandn c cond kd ka kb s
  | .knot c cond kd ka => Sys2Proof.Machine.execKnot c cond kd ka s
  | .kmovg c cond gd ka q => Sys2Proof.Machine.execKmovg c cond gd ka q s
  | .kmovk c cond kd ga q => Sys2Proof.Machine.execKmovk c cond kd ga q s
  | .vectorEntryBeats c => Sys2Proof.Machine.execVectorEntryBeats c s
  | .vectorEntryComplete c => Sys2Proof.Machine.execVectorEntryComplete c s
  | .fadd c cond gd ga gb => Sys2Proof.Machine.execFadd c cond gd ga gb s
  | .fsub c cond gd ga gb => Sys2Proof.Machine.execFsub c cond gd ga gb s
  | .fmul c cond gd ga gb => Sys2Proof.Machine.execFmul c cond gd ga gb s
  | .ffma c cond gd ga gb => Sys2Proof.Machine.execFfma c cond gd ga gb s
  | .fdiv c cond gd ga gb => Sys2Proof.Machine.execFdiv c cond gd ga gb s
  | .fsqrt c cond gd ga => Sys2Proof.Machine.execFsqrt c cond gd ga s
  | .fmin c cond gd ga gb => Sys2Proof.Machine.execFmin c cond gd ga gb s
  | .fmax c cond gd ga gb => Sys2Proof.Machine.execFmax c cond gd ga gb s
  | .fcmp c cond ga gb => Sys2Proof.Machine.execFcmp c cond ga gb s
  | .fneg c cond gd ga => Sys2Proof.Machine.execFneg c cond gd ga s
  | .fabs c cond gd ga => Sys2Proof.Machine.execFabs c cond gd ga s
  | .fcvtsw c cond gd ga sh => Sys2Proof.Machine.execFcvtsw c cond gd ga sh s
  | .fcvtws c cond gd ga sh => Sys2Proof.Machine.execFcvtws c cond gd ga sh s
  | .fdstepd c cond gd ga gb => Sys2Proof.Machine.execFdstepd c cond gd ga gb s
  | .fdstepr c cond gd ga => Sys2Proof.Machine.execFdstepr c cond gd ga s
  | .fdstep c cond gd => Sys2Proof.Machine.execFdstep c cond gd s
  | .fdstepf c cond gd => Sys2Proof.Machine.execFdstepf c cond gd s
  | .cmov c cond gd ga => Sys2Proof.Machine.execCmov c cond gd ga s
  | .cgetbase c cond gd ga => Sys2Proof.Machine.execCgetbase c cond gd ga s
  | .cgetlen c cond gd ga => Sys2Proof.Machine.execCgetlen c cond gd ga s
  | .cgettag c cond gd ga => Sys2Proof.Machine.execCgettag c cond gd ga s
  | .csetaddr c cond gd ga gb => Sys2Proof.Machine.execCsetaddr c cond gd ga gb s
  | .cincaddr c cond gd ga gb => Sys2Proof.Machine.execCincaddr c cond gd ga gb s
  | .csetb c cond gd ga gb => Sys2Proof.Machine.execCsetb c cond gd ga gb s
  | .candp c cond gd ga gb => Sys2Proof.Machine.execCandp c cond gd ga gb s
  | .csetkey c cond gd ga gb => Sys2Proof.Machine.execCsetkey c cond gd ga gb s
  | .cseal c cond gd ga gb => Sys2Proof.Machine.execCseal c cond gd ga gb s
  | .cunseal c cond gd ga gb => Sys2Proof.Machine.execCunseal c cond gd ga gb s
  | .ctstsub c cond ga gb => Sys2Proof.Machine.execCtstsub c cond ga gb s
  | .cprec c cond gd gb => Sys2Proof.Machine.execCprec c cond gd gb s
  | .calgn c cond gd ga gb => Sys2Proof.Machine.execCalgn c cond gd ga gb s
  | .cinvoke c cond ga gb => Sys2Proof.Machine.execCinvoke c cond ga gb s
  | .keyw c cond ga gb => Sys2Proof.Machine.execKeyw c cond ga gb s
  | .keyr c cond gd ga => Sys2Proof.Machine.execKeyr c cond gd ga s
  | .evraise c cond gb => Sys2Proof.Machine.execEvraise c cond gb s
  | .evack c cond gb => Sys2Proof.Machine.execEvack c cond gb s
  | .evclr c cond gb => Sys2Proof.Machine.execEvclr c cond gb s
  | .evnext c cond gd => Sys2Proof.Machine.execEvnext c cond gd s
  | .heldRaiseDelivery ev => Sys2Proof.Machine.execHeldRaiseDelivery ev s
  | .timerFire c => Sys2Proof.Machine.execTimerFire c s
  | .esub c cond gd ga gb => Sys2Proof.Machine.execEsub c cond gd ga gb s
  | .engineQueueEntry e => Sys2Proof.Machine.execEngineQueueEntry e s
  | .engineFetch e => Sys2Proof.Machine.execEngineFetch e s
  | .engineWriteback e => Sys2Proof.Machine.execEngineWriteback e s
  | .engineCompletion e => Sys2Proof.Machine.execEngineCompletion e s
  | .ecdsaP256Sign e => Sys2Proof.Machine.execEcdsaP256Sign e s
  | .ecdsaP256Verify e => Sys2Proof.Machine.execEcdsaP256Verify e s
  | .ecdsaP384Sign e => Sys2Proof.Machine.execEcdsaP384Sign e s
  | .ecdsaP384Verify e => Sys2Proof.Machine.execEcdsaP384Verify e s
  | .ed25519Sign e => Sys2Proof.Machine.execEd25519Sign e s
  | .ed25519Verify e => Sys2Proof.Machine.execEd25519Verify e s
  | .ecdhP256 e => Sys2Proof.Machine.execEcdhP256 e s
  | .ecdhP384 e => Sys2Proof.Machine.execEcdhP384 e s
  | .keyPairGenerationP256 e => Sys2Proof.Machine.execKeyPairGenerationP256 e s
  | .keyPairGenerationP384 e => Sys2Proof.Machine.execKeyPairGenerationP384 e s
  | .keyPairGenerationEd25519 e => Sys2Proof.Machine.execKeyPairGenerationEd25519 e s
  | .rsaSign2048 e => Sys2Proof.Machine.execRsaSign2048 e s
  | .rsaSign3072 e => Sys2Proof.Machine.execRsaSign3072 e s
  | .rsaSign4096 e => Sys2Proof.Machine.execRsaSign4096 e s
  | .rsaVerify2048 e => Sys2Proof.Machine.execRsaVerify2048 e s
  | .rsaVerify3072 e => Sys2Proof.Machine.execRsaVerify3072 e s
  | .rsaVerify4096 e => Sys2Proof.Machine.execRsaVerify4096 e s
  | .idsign => Sys2Proof.Machine.execIdsign s
  | .aesEcb e => Sys2Proof.Machine.execAesEcb e s
  | .aesCbc e => Sys2Proof.Machine.execAesCbc e s
  | .aesGcm e => Sys2Proof.Machine.execAesGcm e s
  | .aesCmac e => Sys2Proof.Machine.execAesCmac e s
  | .tdesEcb e => Sys2Proof.Machine.execTdesEcb e s
  | .tdesCbc e => Sys2Proof.Machine.execTdesCbc e s
  | .sha256 e => Sys2Proof.Machine.execSha256 e s
  | .sha384 e => Sys2Proof.Machine.execSha384 e s
  | .sha3256 e => Sys2Proof.Machine.execSha3256 e s
  | .hmacSha256 e => Sys2Proof.Machine.execHmacSha256 e s
  | .hmacSha384 e => Sys2Proof.Machine.execHmacSha384 e s
  | .pinTranslation e => Sys2Proof.Machine.execPinTranslation e s
  | .rand e => Sys2Proof.Machine.execRand e s
  | .kgen e => Sys2Proof.Machine.execKgen e s
  | .kimp e => Sys2Proof.Machine.execKimp e s
  | .kpub e => Sys2Proof.Machine.execKpub e s
  | .kexp e => Sys2Proof.Machine.execKexp e s
  | .krst e => Sys2Proof.Machine.execKrst e s
  | .kdel e => Sys2Proof.Machine.execKdel e s
  | .zeroisation => Sys2Proof.Machine.execZeroisation s
  | .ksctlZero => Sys2Proof.Machine.execKsctlZero s
  | .dmkErase => Sys2Proof.Machine.execDmkErase s
  | .drbgReseed e => Sys2Proof.Machine.execDrbgReseed e s
  | .drbgctlRestart => Sys2Proof.Machine.execDrbgctlRestart s
  | .drbgStartupTest first rest => Sys2Proof.Machine.execDrbgStartupTest first rest s
  | .jcommit c cond gd ga gb => Sys2Proof.Machine.execJcommit c cond gd ga gb s
  | .wpjoin c cond gb => Sys2Proof.Machine.execWpjoin c cond gb s
  | .wpjoinTimeout c => Sys2Proof.Machine.execWpjoinTimeout c s
  | .wpleave c cond => Sys2Proof.Machine.execWpleave c cond s
  | .witnessActCompare n => Sys2Proof.Machine.execWitnessActCompare n s
  | .commitQueueEntry => Sys2Proof.Machine.execCommitQueueEntry s
  | .payloadFetch => Sys2Proof.Machine.execPayloadFetch s
  | .payloadFetchEnd => Sys2Proof.Machine.execPayloadFetchEnd s
  | .entryHash disagree => Sys2Proof.Machine.execEntryHash disagree s
  | .entryChaining => Sys2Proof.Machine.execEntryChaining s
  | .entryRelease => Sys2Proof.Machine.execEntryRelease s
  | .checkpointTimer => Sys2Proof.Machine.execCheckpointTimer s
  | .jctlCkpt => Sys2Proof.Machine.execJctlCkpt s
  | .jctlEn => Sys2Proof.Machine.execJctlEn s
  | .chainStart => Sys2Proof.Machine.execChainStart s
  | .jrcons v => Sys2Proof.Machine.execJrcons v s
  | .checkpointDigest => Sys2Proof.Machine.execCheckpointDigest s
  | .checkpointSignatureWrite => Sys2Proof.Machine.execCheckpointSignatureWrite s
  | .headPartWrite => Sys2Proof.Machine.execHeadPartWrite s
  | .headPartWriteEnd ok => Sys2Proof.Machine.execHeadPartWriteEnd ok s
  | .signaturePartWrite => Sys2Proof.Machine.execSignaturePartWrite s
  | .signaturePartWriteEnd ok => Sys2Proof.Machine.execSignaturePartWriteEnd ok s
  | .msub c cond gd ga => Sys2Proof.Machine.execMsub c cond gd ga s
  | .moverDescriptorStart ch => Sys2Proof.Machine.execMoverDescriptorStart ch s
  | .moverBurst ch reply => Sys2Proof.Machine.execMoverBurst ch reply s
  | .moverCompletion ch => Sys2Proof.Machine.execMoverCompletion ch s
  | .mchcfgEnClear ch => Sys2Proof.Machine.execMchcfgEnClear ch s
  | .dpwait c cond => Sys2Proof.Machine.execDpwait c cond s
  | .dpctlGo c cond g => Sys2Proof.Machine.execDpctlGo c cond g s
  | .dpResponse c => Sys2Proof.Machine.execDpResponse c s
  | .dpdataRead c cond g => Sys2Proof.Machine.execDpdataRead c cond g s
  | .dpdataWrite c cond g => Sys2Proof.Machine.execDpdataWrite c cond g s
  | .xop c cond n gd ga gb => Sys2Proof.Machine.execXop c cond n gd ga gb s
  | .microAdd c d a b w f => Sys2Proof.Machine.execMicroAdd c d a b w f s
  | .microSub c d a b w f => Sys2Proof.Machine.execMicroSub c d a b w f s
  | .microAdc c d a b w f => Sys2Proof.Machine.execMicroAdc c d a b w f s
  | .microSbc c d a b w f => Sys2Proof.Machine.execMicroSbc c d a b w f s
  | .microAnd c d a b w f => Sys2Proof.Machine.execMicroAnd c d a b w f s
  | .microOr c d a b w f => Sys2Proof.Machine.execMicroOr c d a b w f s
  | .microXor c d a b w f => Sys2Proof.Machine.execMicroXor c d a b w f s
  | .microAndn c d a b w f => Sys2Proof.Machine.execMicroAndn c d a b w f s
  | .microSll c d a b w f => Sys2Proof.Machine.execMicroSll c d a b w f s
  | .microSrl c d a b w f => Sys2Proof.Machine.execMicroSrl c d a b w f s
  | .microSra c d a b w f => Sys2Proof.Machine.execMicroSra c d a b w f s
  | .microRol c d a b w f => Sys2Proof.Machine.execMicroRol c d a b w f s
  | .microRor c d a b w f => Sys2Proof.Machine.execMicroRor c d a b w f s
  | .microClz c d a w f => Sys2Proof.Machine.execMicroClz c d a w f s
  | .microPopc c d a w f => Sys2Proof.Machine.execMicroPopc c d a w f s
  | .dval c a b => Sys2Proof.Machine.execDval c a b s
  | .daddx c d a b => Sys2Proof.Machine.execDaddx c d a b s
  | .dsubx c d a b => Sys2Proof.Machine.execDsubx c d a b s
  | .dsl1 c d a => Sys2Proof.Machine.execDsl1 c d a s
  | .dsr1 c d a => Sys2Proof.Machine.execDsr1 c d a s
  | .dmd c d a b => Sys2Proof.Machine.execDmd c d a b s
  | .dcmpm c a b => Sys2Proof.Machine.execDcmpm c a b s
  | .dsgn c d a b => Sys2Proof.Machine.execDsgn c d a b s
  | .getb c d a b => Sys2Proof.Machine.execGetb c d a b s
  | .putb c d a b => Sys2Proof.Machine.execPutb c d a b s
  | .getn c d a b => Sys2Proof.Machine.execGetn c d a b s
  | .putn c d a b => Sys2Proof.Machine.execPutn c d a b s
  | .sreg c d sr => Sys2Proof.Machine.execSreg c d sr s
  | .microAddi c d a f imm => Sys2Proof.Machine.execMicroAddi c d a f imm s
  | .microAndi c d a f imm => Sys2Proof.Machine.execMicroAndi c d a f imm s
  | .microOri c d a f imm => Sys2Proof.Machine.execMicroOri c d a f imm s
  | .shi c d a imm => Sys2Proof.Machine.execShi c d a imm s
  | .lit c d imm => Sys2Proof.Machine.execLit c d imm s
  | .mld c d cc o sz => Sys2Proof.Machine.execMld c d cc o sz s
  | .mst c d cc o sz => Sys2Proof.Machine.execMst c d cc o sz s
  | .mchk c d cc o perm => Sys2Proof.Machine.execMchk c d cc o perm s
  | .adv c d a b => Sys2Proof.Machine.execAdv c d a b s
  | .setf c mask => Sys2Proof.Machine.execSetf c mask s
  | .microBr c cond target => Sys2Proof.Machine.execMicroBr c cond target s
  | .loop c u target => Sys2Proof.Machine.execLoop c u target s
  | .call c target => Sys2Proof.Machine.execCall c target s
  | .microRet c => Sys2Proof.Machine.execMicroRet c s
  | .yield c dn => Sys2Proof.Machine.execYield c dn s
  | .exit c => Sys2Proof.Machine.execExit c s
  | .trapIllegal c => Sys2Proof.Machine.execTrapIllegal c s
  | .trapArithmetic c cause => Sys2Proof.Machine.execTrapArithmetic c cause s
  | .microWatchdog c => Sys2Proof.Machine.execMicroWatchdog c s
  | .xopLoaderGo => Sys2Proof.Machine.execXopLoaderGo s
  | .xopLoadVerifyResult => Sys2Proof.Machine.execXopLoadVerifyResult s
  | .xopWordWrite => Sys2Proof.Machine.execXopWordWrite s
  | .xopLoadInstall => Sys2Proof.Machine.execXopLoadInstall s
  | .storeBufferDrain c => Sys2Proof.Machine.execStoreBufferDrain c s
  | .globalAccessPerform c => Sys2Proof.Machine.execGlobalAccessPerform c s
  | .globalLoadComplete c => Sys2Proof.Machine.execGlobalLoadComplete c s
  | .blockReadReturn c => Sys2Proof.Machine.execBlockReadReturn c s
  | .scrubRowDue => Sys2Proof.Machine.execScrubRowDue s
  | .scrubRow u upsets => Sys2Proof.Machine.execScrubRow u upsets s
  | .scrubberStarved u => Sys2Proof.Machine.execScrubberStarved u s
  | .eccaddrValidClear => Sys2Proof.Machine.execEccaddrValidClear s
  | .nativeEntry c word => Sys2Proof.Machine.execNativeEntry c word s
  | .baseEntry c => Sys2Proof.Machine.execBaseEntry c s
  | .crhold v => Sys2Proof.Machine.execCrhold v s
  | .coreResetHoldApplied c => Sys2Proof.Machine.execCoreResetHoldApplied c s
  | .coreResetRelease c => Sys2Proof.Machine.execCoreResetRelease c s
  | .cfglockLock => Sys2Proof.Machine.execCfglockLock s
  | .hostSlotWrite place bytes => Sys2Proof.Machine.execHostSlotWrite place bytes s
  | .idb r slot len => Sys2Proof.Machine.execIdb r slot len s
  | .admissionWindowStart => Sys2Proof.Machine.execAdmissionWindowStart s
  | .arrive c r gd => Sys2Proof.Machine.execArrive c r gd s
  | .epost r v => Sys2Proof.Machine.execEpost r v s
  | .egressTransferStart x => Sys2Proof.Machine.execEgressTransferStart x s
  | .egressHandover x => Sys2Proof.Machine.execEgressHandover x s
  | .busyResponseStart => Sys2Proof.Machine.execBusyResponseStart s
  | .busyHandover => Sys2Proof.Machine.execBusyHandover s
  | .rctlEnable r mir => Sys2Proof.Machine.execRctlEnable r mir s
  | .ringReset r => Sys2Proof.Machine.execRingReset r s
  | .rctlDisable r mir => Sys2Proof.Machine.execRctlDisable r mir s
  | .functionLevelReset e => Sys2Proof.Machine.execFunctionLevelReset e s
  | .vfEnableClear => Sys2Proof.Machine.execVfEnableClear s
  | .linkStateChange up width speed => Sys2Proof.Machine.execLinkStateChange up width speed s
  | .pciePerst => Sys2Proof.Machine.execPciePerst s
  | .tlpError k => Sys2Proof.Machine.execTlpError k s
  | .hostApertureAccess place access => Sys2Proof.Machine.execHostApertureAccess place access s
  | .mbh2d len => Sys2Proof.Machine.execMbh2d len s
  | .mbd2h len => Sys2Proof.Machine.execMbd2h len s
  | .doeRequest len => Sys2Proof.Machine.execDoeRequest len s
  | .ideStreamError k => Sys2Proof.Machine.execIdeStreamError k s
  | .clkctlLean c lean => Sys2Proof.Machine.execClkctlLean c lean s
  | .clockModeSwitch => Sys2Proof.Machine.execClockModeSwitch s
  | .clockLoss => Sys2Proof.Machine.execClockLoss s
  | .tsppsEdge ticks => Sys2Proof.Machine.execTsppsEdge ticks s
  | .taiSecondWrap => Sys2Proof.Machine.execTaiSecondWrap s
  | .syncTimeout => Sys2Proof.Machine.execSyncTimeout s
  | .supplyWarning rail => Sys2Proof.Machine.execSupplyWarning rail s
  | .supplyWarningRelease rail => Sys2Proof.Machine.execSupplyWarningRelease rail s
  | .mramWriteInhibit => Sys2Proof.Machine.execMramWriteInhibit s
  | .mramInhibitEnd => Sys2Proof.Machine.execMramInhibitEnd s
  | .supplyReset rail => Sys2Proof.Machine.execSupplyReset rail s
  | .powerOnReset => Sys2Proof.Machine.execPowerOnReset s
  | .rstN ns => Sys2Proof.Machine.execRstN ns s
  | .devrst v => Sys2Proof.Machine.execDevrst v s
  | .deviceReset => Sys2Proof.Machine.execDeviceReset s
  | .bootSequence inp => Sys2Proof.Machine.execBootSequence inp s
  | .supplyTelemetryTick core io mram => Sys2Proof.Machine.execSupplyTelemetryTick core io mram s
  | .thermalSample raw => Sys2Proof.Machine.execThermalSample raw s
  | .tamperInput pin => Sys2Proof.Machine.execTamperInput pin s
  | .trimwr v => Sys2Proof.Machine.execTrimwr v s
  | .trimRewriteComplete => Sys2Proof.Machine.execTrimRewriteComplete s
  | .okhprogGo => Sys2Proof.Machine.execOkhprogGo s
  | .okhProgrammingComplete => Sys2Proof.Machine.execOkhProgrammingComplete s
  | .hbmRefreshRateChange k hot => Sys2Proof.Machine.execHbmRefreshRateChange k hot s
  | .hbmPatrolPassComplete k => Sys2Proof.Machine.execHbmPatrolPassComplete k s
  | .hbmPhyError k => Sys2Proof.Machine.execHbmPhyError k s
  | .uarttx b => Sys2Proof.Machine.execUarttx b s
  | .uartrx c gd => Sys2Proof.Machine.execUartrx c gd s
  | .uartByteReceived b stopHigh => Sys2Proof.Machine.execUartByteReceived b stopHigh s
  | .uartByteSent => Sys2Proof.Machine.execUartByteSent s
  | .smbusBlockWrite bytes pecOk => Sys2Proof.Machine.execSmbusBlockWrite bytes pecOk s
  | .smbusBlockRead whole => Sys2Proof.Machine.execSmbusBlockRead whole s
  | .smbusAlertResponse => Sys2Proof.Machine.execSmbusAlertResponse s
  | .smbrxpop => Sys2Proof.Machine.execSmbrxpop s
  | .smbtxctlGo len => Sys2Proof.Machine.execSmbtxctlGo len s
  | .qspictlGo => Sys2Proof.Machine.execQspictlGo s
  | .qspiReadComplete bytes => Sys2Proof.Machine.execQspiReadComplete bytes s
  | .gpioInputChange pin level => Sys2Proof.Machine.execGpioInputChange pin level s
  | .tapReset => Sys2Proof.Machine.execTapReset s
  | .idcode => Sys2Proof.Machine.execIdcode s
  | .samplePreload bits => Sys2Proof.Machine.execSamplePreload bits s
  | .extest => Sys2Proof.Machine.execExtest s
  | .extestPulse => Sys2Proof.Machine.execExtestPulse s
  | .extestTrain => Sys2Proof.Machine.execExtestTrain s
  | .clamp => Sys2Proof.Machine.execClamp s
  | .highz => Sys2Proof.Machine.execHighz s
  | .iddata => Sys2Proof.Machine.execIddata s
  | .bypass => Sys2Proof.Machine.execBypass s
  | .registerWrite who addr size v => Sys2Proof.Machine.execRegisterWrite who addr size v s
  | .continuousTestFailure first rest => Sys2Proof.Machine.execContinuousTestFailure first rest s
  | .tsclkLoss => Sys2Proof.Machine.execTsclkLoss s
  | .tsclkReturn => Sys2Proof.Machine.execTsclkReturn s
  | .patrolScrub k off upsets => Sys2Proof.Machine.execPatrolScrub k off upsets s
  | .vfEnableSet n => Sys2Proof.Machine.execVfEnableSet n s

end Sys2Proof.Machine
end

