-- ==== Sys2Proof/Safety.lean ====
section
/-! DEFINITION. The terms in which claims speak of a run: the cycle in which an offered instruction issues, the state in
which it reads its operands, when nothing stands before it, and the state that its issue leaves; and the invariant that
every step keeps. -/
namespace Sys2Proof.Machine

/-! ## The issue of one instruction -/

/-- The cycle of the boundary before the next instruction of core c. -/
def issueCycle (s : State) (c : CoreId) : Nat := (nextBoundary c s).1

/-- The state in which core c comes to that boundary, its own instruction under way advanced. -/
def arrived (s : State) (c : CoreId) : State := (nextBoundary c s).2

/-- The boundary before the next instruction of core c, in the cycle of its issue. -/
def boundary (s : State) (c : CoreId) : State := fetchCheck c (issueCycle s c) (atBoundary c (issueCycle s c) (arrived s c))

/-- The state of that boundary once the writes due in the cycle of issue are in their registers (R60). -/
def atIssue (s : State) (c : CoreId) : State := (boundary s c).modCore c (settleCore false (issueCycle s c))

/-- The state in which the next instruction of core c reads its operands: one that is repeated reads the count that remains (R60, R178). -/
def operands (s : State) (c : CoreId) : State := withCount c (atIssue s c)

/-- Core c as its next instruction reads it. -/
def operandCore (s : State) (c : CoreId) : Core := (operands s c).core c

/-- What DE asks of an instruction besides its own fields: whether a prefix extends it (R97), whether R69 bans it from
slot groups, whether RPT may repeat it (R177), and the registers it writes then (R179). -/
structure Demand where
  ext : Bool := false
  banned : Bool := false
  rptOk : Bool := false
  writes : List Reg := []
  deriving DecidableEq, Repr

/-- Nothing stands before the next instruction of core c, whose condition holds: the core can begin it, no string instruction of it is at a
point, no exception is due at its boundary (R174, R302, R305, R306), no word is there to be corrected (R266), and the prefix, slot group
and repeat in force allow it (R69, R97, R98, R177, R179). -/
def clear (s : State) (c : CoreId) (cond : Cond) (d : Demand) : Bool :=
  let t := issueCycle s c
  let k := (arrived s c).core c
  let q := (operandCore s c).seq
  canIssue (arrived s c) c && k.seq.str.isNone && k.seq.trap.isNone && (boundary s c).eccSoft.isEmpty &&
  (baseDue c t (boundary s c)).isNone && (impreciseDue c t false (atIssue s c)).isNone &&
  (!accepts ((boundary s c).core c).seq || (nativeEventDue (atIssue s c) c t).isNone) &&
  (q.imm.isNone || d.ext) && !(d.banned && inGroup q) &&
  (match q.rpt with
   | some r => d.rptOk && !(d.writes.contains r.gc) && r.left != 0
   | none => true) &&
  condHolds cond (operandCore s c).x.status

/-- The state that an instruction of core c leaves when it issues at an issue cost: `effect` over the state in which it
read its operands, and the bookkeeping of its issue (R53, R66, R81, R97, R178). -/
def issued (s : State) (c : CoreId) (cost : Nat) (effect : State → State) : State :=
  finish c (issueCycle s c) cost (operandCore s c).seq (effect (operands s c))

/-- The state that an instruction of core c leaves when its cause comes `delay` cycles after its issue: no instruction issues before then,
and the cause is delivered at that boundary (R171, R223, R232); `effect` is over the state in which it read its operands. -/
def trapped (s : State) (c : CoreId) (delay : Nat) (q : Trap) (effect : State → State) : State :=
  trapAt c (issueCycle s c + delay) q ((effect (operands s c)).modSeq c fun q => { q with hold := none })

/-- Writes of one instruction put in flight, each with its distance from the issue cycle t (R55). -/
def writes (c : CoreId) (t : Nat) (l : List (Nat × WriteWhat)) (s : State) : State :=
  l.foldl (fun s (d, w) => push c (t + d) w s) s

/-- Register r of core c as an instruction of cycle t reads it, every write due by then in place (R60, R61). -/
def seenReg (s : State) (c : CoreId) (t : Nat) (r : Reg) : TWord := (retire t (s.core c)).reg r

/-- The four integer flags as a flag mask has them (R125). -/
def nzcv (n z c v : Bool) : BitVec 6 := flag fN n ||| flag fZ z ||| flag fC c ||| flag fV v

/-! ## The step of a routine (R349, R354) -/

/-- The cycle of the next step of a routine m. -/
def stepTime (s : State) (m : Micro) : Nat := max s.now m.cycle

/-- The state in which that step reads its operands. -/
def stepState (s : State) (c : CoreId) (m : Micro) : State :=
  (settle (stepTime s m) s).modCore c (settleCore false (stepTime s m))

/-- The routine as that step sees it, the loads that are visible in place (R357). -/
def stepMicro (s : State) (m : Micro) : Micro := { m with start := m.start + (stepTime s m - m.cycle) }.settled

/-- Core c runs the routine m, which takes a step: its step counter is not used up (R362), and no word of memory holds an
error in that step. -/
def stepping (s : State) (c : CoreId) (m : Micro) : Prop :=
  (s.core c).seq.micro = some m ∧ runs s c = true ∧ m.watch < 4096 ∧
  (stepState s c m).eccBad = [] ∧ (stepState s c m).eccSoft = []

/-- The state after a step with which the routine goes on as r, over a state u. -/
def goesOn (c : CoreId) (r : Micro) (u : State) : State := u.modSeq c fun q => { q with micro := some r }

/-- The state after a step that writes v into operand d, and the micro-flags of a mask, and goes on to the next word. -/
def stepped (s : State) (c : CoreId) (m : Micro) (d : MOpnd) (v : Option Word) (mask vals : BitVec 6) : State :=
  let r := { stepMicro s m with flags := ((stepMicro s m).flags &&& ~~~mask) ||| (vals &&& mask) }
  let w := match v with
    | some v => opndWrite c (stepTime s m) r d v (stepState s c m)
    | none => (r, stepState s c m)
  goesOn c (w.1.after (w.1.upc + 1)) w.2

/-! ## Canonical memory -/

/-- The memory and the key bytes of the global frames are in their one canonical form. -/
def Canonical (s : State) : Prop := Memory.wf s.mem = true ∧ Memory.wf s.fkeys = true

end Sys2Proof.Machine
end

