-- ==== Sys2Proof/Certificates/Slice0/Obligations.lean ====
section
/-! DEFINITION. The statements about the model that are to be proved, each with the rules of the spec it formalises. -/
open Sys2Proof Sys2Proof.Machine

/-! ## The queue -/

/-- A step takes the command at the front of the queue and gives it the state with the rest of the queue. On an empty queue
one core cycle passes and nothing else changes (the model's choice, log entry 17). -/
def Obligations.StepRunsTheFrontCommand : Prop :=
  (∀ (i : Instr) (rest : List Instr) (s : State),
     step { s with pending := i :: rest } = exec i { s with pending := rest }) ∧
  (∀ s : State, step { s with pending := [] } = .next { s with pending := [], now := s.now + 1 })

/-! ## Reset -/

/-- The values that the spec gives the registers of a core for core reset (R125, R134, R191, R298, R309, R311, R331, R461),
and the other cores held. The memory after reset is canonical. -/
def Obligations.ResetState : Prop :=
  (∀ c : CoreId,
     let k := State.reset.core c
     (∀ r : Reg, r.val ≠ 1 ∨ c.val ≠ 0 → k.reg r = TWord.null) ∧
     k.x.status = 0x008F0000 ∧ k.x.pcc = { val := setAddr rootCap.val 0x100000, tag := true } ∧
     k.regs.vl = 4096 ∧ k.regs.dctl = 0 ∧ k.regs.fpctl = 0 ∧ k.regs.fpflags = 0 ∧ k.dp.err = 0 ∧ k.dp.busy = false ∧
     k.evP = 0 ∧ k.evS = 0 ∧ k.x.locked = false ∧
     (c.val = 0 → k.atBase = true ∧ k.reg 1 = rootCap ∧ k.seq.inReset = false) ∧
     (c.val ≠ 0 → k.level = .native ∧ k.seq.inReset = true)) ∧
  (Canonical State.reset)

/-! ## Canonical memory -/

/-- Every step keeps the memory and the key bytes of the global frames in their one canonical form. -/
def Obligations.EveryStepKeepsMemoryCanonical : Prop :=
  ∀ s t : State, Canonical s → step s = .next t → Canonical t

/-- A byte of device memory that a write covers reads as written, and every other byte reads as before. Bytes put into
memory through a core's port, those of a store to the LIS and of a store-buffer entry that drains among them, change the
bytes they store and no other byte of memory (R72, R73, R84). -/
def Obligations.MemoryReadsWhatWasWritten : Prop :=
  (∀ (m : List Host.Cell) (a x : Nat) (bs : List Byte), Memory.wf m = true →
     memGet (memWrite m a bs) x = if a ≤ x ∧ x < a + bs.length then bs.getD (x - a) 0 else memGet m x) ∧
  (∀ (s : State) (c : CoreId) (x d : Nat) (bs : List Byte) (tag : Option Bool), bs ≠ [] → x + bs.length ≤ attBase →
     let u := performTimed { cycle := d, rank := 1, core := c, what := .put x bs tag } s
     (∀ a, a < x ∨ x + bs.length ≤ a → memGet u.mem a = memGet s.mem a) ∧
     (Memory.wf s.mem = true → ∀ a, x ≤ a → a < x + bs.length → memGet u.mem a = bs.getD (a - x) 0) ∧
     (∀ e : SbEntry, e.bytes = bs → ldsBase c + e.off = x → e.tag = tag → (drainEntry c e d s).mem = s.mem ∧
       (drainEntry c e d s).timed = insertTimed { cycle := d, rank := 1, core := c, what := .put x bs tag } s.timed))

/-! ## Issue and writes in flight -/

/-- The writes of an instruction reach their registers and flags in the cycle in which they complete and not before, a later
instruction's after an earlier one's (R55, R60, R61): after writes of an instruction to a register and the flags that
complete in cycle d, a register read in a cycle from d on gives the value written, and one before d, or of another
register, gives what it gave. -/
def Obligations.WritesReachTheirRegisters : Prop :=
  ∀ (s : State) (c : CoreId) (d t : Nat) (gd r : Reg) (v : TWord) (m f : BitVec 6),
    (∀ w ∈ (s.core c).seq.inflight, w.seq < (s.core c).seq.wseq) →
    (s.core c).seq.inflight.Pairwise (fun x y => x.due < y.due ∨ (x.due = y.due ∧ x.seq < y.seq)) →
    (∀ w ∈ (s.core c).seq.inflight, d ≤ t → w.due ≤ t → w.due ≤ d) →
    let s' := pushFlags c d m f (pushCap c d gd v s)
    (d ≤ t → r = gd → gd ≠ 0 → seenReg s' c t r = v) ∧ (t < d → seenReg s' c t r = seenReg s c t r) ∧
    (r ≠ gd → seenReg s' c t r = seenReg s c t r) ∧ seenReg s' c t 0 = TWord.null ∧
    (t < d → (retire t (s'.core c)).x.status = (retire t (s.core c)).x.status)

/-- What issue itself leaves unchanged: an instruction that only puts writes in flight changes, beside them and the
sequencing of its own core (the PCC with it), nothing: no register or flag before its write completes, no byte of
memory, no tag, no key, no other core, no register of any unit. -/
def Obligations.RegisterInstructionFrame : Prop :=
  ∀ (s : State) (c : CoreId) (cost : Nat) (l : List (Nat × WriteWhat)),
    let o := operands s c
    let u := issued s c cost (writes c (issueCycle s c) l)
    (∀ a, memGet u.mem a = memGet o.mem a) ∧
    { u with cores := o.cores } = o ∧ (∀ j, j ≠ c → u.core j = o.core j) ∧
    (u.core c).regs = (o.core c).regs ∧ (u.core c).dp = (o.core c).dp ∧ (u.core c).ms = (o.core c).ms ∧
    (u.core c).evP = (o.core c).evP ∧ (u.core c).evS = (o.core c).evS ∧
    { (u.core c).x with pcc := (o.core c).x.pcc } = (o.core c).x ∧
    (∀ w ∈ (o.core c).seq.inflight, w ∈ (u.core c).seq.inflight)

/-! ## Branches, prefixes and calls -/

/-- The sequence of instructions (R66): with no branch pending the PCC moves to the next word; an instruction in the first
slot of a branch moves to the next word too; one in the last slot of a taken branch moves to the target under its PCC,
and of a branch not taken to the next word. B, BL, BR and BRL that pass the checks of R119 put in place a taken branch
with two delay slots; BL and BRL write the return capability, the PCC at the branch address plus 12, to g30 (R66, R68,
R118, R119, R120, R294). -/
def Obligations.InstructionsFollowAndBranch : Prop :=
  (∀ (s : State) (c : CoreId) (cost : Nat), (operandCore s c).seq.rpt = none →
     let k := operandCore s c
     let u := (issued s c cost (writes c (issueCycle s c) [])).core c
     let next : TWord := { k.x.pcc with val := setAddr k.x.pcc.val (k.pc + 4) }
     u.seq.nextIssue = issueCycle s c + cost ∧ u.seq.slot = k.seq.slot + 1 ∧
     (k.seq.branch = none → u.x.pcc = next ∧ u.seq.branch = none) ∧
     (∀ b, k.seq.branch = some b → b.left = 2 → u.x.pcc = next ∧ u.seq.branch = some { b with left := 1 }) ∧
     (∀ b, k.seq.branch = some b → b.left = 1 → b.taken = true → u.x.pcc = b.target ∧ u.seq.branch = none) ∧
     (∀ b, k.seq.branch = some b → b.left = 1 → b.taken = false → u.x.pcc = next ∧ u.seq.branch = none)) ∧
  (∀ (s : State) (c : CoreId) (cond : Cond) (disp : BitVec 21) (gb : Reg),
     clear s c cond { banned := true } = true →
     let k := operandCore s c
     let t := issueCycle s c
     let at_ (a : Addr) : TWord := { k.x.pcc with val := setAddr k.x.pcc.val a }
     let link : List (Nat × WriteWhat) := [(1, .reg 30 { val := setAddr k.x.pcc.val (k.pc + 12), tag := true })]
     let goes (p : TWord) (reg : Nat) (i j : Instr) : Prop := targetFault p.val (capAddr p.val).toNat reg = none →
       exec i s = .next (issued s c 1 (takeBranch c p none)) ∧
       exec j s = .next (issued s c 1 fun u => takeBranch c p none (writes c t link u))
     goes (at_ (k.pc + 4 * BitVec.signExtend 52 disp)) 32 (.b c cond disp) (.bl c cond disp) ∧
     (k.legacy = true → goes (at_ (capAddr (k.reg gb).val)) 32 (.br c cond gb) (.brl c cond gb)) ∧
     (k.legacy = false → (k.reg gb).tag = true → isSealed (k.reg gb) = false → hasPerm (k.reg gb).val permEX = true →
       goes (k.reg gb) gb.val (.br c cond gb) (.brl c cond gb)))

/-! ## Integer instructions -/

/-- ADD, SUB, ADC, SBC, NEG, CMP and their immediate forms: the result is the exact sum or difference modulo 2^w, sign-
filled; N and Z of the result, C the carry or the absence of a borrow, V where the exact signed value does not fit; a V
of a form that writes a result raises INT_OVERFLOW where STATUS.OE is set (R22, R99, R100, R101, R103). -/
def Obligations.SumsAndDifferences : Prop :=
  ∀ (s : State) (c : CoreId) (cond : Cond) (w : Wf) (gd ga gb : Reg) (imm : BitVec 10), w ≠ 3 →
    let n := widthOf w
    let k := operandCore s c
    let t := issueCycle s c
    let a := lowBits n (k.reg ga).val
    let b := lowBits n (k.reg gb).val
    let i := lowBits n (immWord k imm)
    let sg (x : Nat) : Int := toSigned n x
    let carry : Nat := if k.x.status.getLsbD 2 then 1 else 0
    let out (r : Option Reg) (cf : Bool) (x : Int) : Host.Outcome State Fault Refusal :=
      let d := (x % 2 ^ n).toNat
      let v := decide (x < -2 ^ (n - 1) ∨ 2 ^ (n - 1) ≤ x)
      let fl : WriteWhat := .flags 15 (nzcv (d.testBit (n - 1)) (d == 0) cf v)
      match r with
      | some r => .next (issued s c (paCost k 1) fun u => causeIf (stOE k.x.status && v) c cIntOverflow
          (writes c t [(1, .reg r (TWord.plain (signFill n d))), (1, fl)] u))
      | none => .next (issued s c 1 (writes c t [(1, fl)]))
    (clear s c cond { rptOk := true, writes := [gd] } = true →
      exec (.add c cond w gd ga gb) s = out (some gd) (decide (2 ^ n ≤ a + b)) (sg a + sg b) ∧
      exec (.sub c cond w gd ga gb) s = out (some gd) (decide (b ≤ a)) (sg a - sg b) ∧
      exec (.adc c cond w gd ga gb) s = out (some gd) (decide (2 ^ n ≤ a + b + carry)) (sg a + sg b + carry) ∧
      exec (.sbc c cond w gd ga gb) s = out (some gd) (decide (b + (1 - carry) ≤ a)) (sg a - sg b - (1 - carry : Nat)) ∧
      exec (.neg c cond w gd gb) s = out (some gd) (decide (b = 0)) (-sg b)) ∧
    (clear s c cond { rptOk := true } = true → exec (.cmp c cond w ga gb) s = out none (decide (b ≤ a)) (sg a - sg b)) ∧
    (clear s c cond { rptOk := true, ext := true, writes := [gd] } = true →
      exec (.addi c cond w gd ga imm) s = out (some gd) (decide (2 ^ n ≤ a + i)) (sg a + sg i) ∧
      exec (.subi c cond w gd ga imm) s = out (some gd) (decide (i ≤ a)) (sg a - sg i)) ∧
    (clear s c cond { rptOk := true, ext := true } = true →
      exec (.cmpi c cond w ga imm) s = out none (decide (i ≤ a)) (sg a - sg i))

/-- AND, OR, XOR, ANDN, TST and the immediate forms combine the w-bit operands bit by bit and write N and Z only; CLZ counts
the zero bits above the highest set bit and POPC the set bits, with N written 0 (R99, R101). The shifts and rotates, by
gb[7:0] or by the amount of the word: the w-bit result; N and Z; and, for a shift by an amount other than 0, C the last
bit shifted out, 0 or the sign beyond the width (R102). -/
def Obligations.LogicShiftsAndRotates : Prop :=
  (∀ (s : State) (c : CoreId) (cond : Cond) (w : Wf) (gd ga gb : Reg) (imm : BitVec 10), w ≠ 3 →
     let n := widthOf w
     let k := operandCore s c
     let t := issueCycle s c
     let a := lowBits n (k.reg ga).val
     let b := lowBits n (k.reg gb).val
     let i := lowBits n (immWord k imm)
     let out (r : Option Reg) (nf : Bool) (d : Nat) : Host.Outcome State Fault Refusal :=
       let fl : WriteWhat := .flags 3 (nzcv nf (d == 0) false false)
       .next (issued s c 1 (writes c t (match r with
         | some r => [(1, .reg r (TWord.plain (signFill n d))), (1, fl)]
         | none => [(1, fl)])))
     let sign (d : Nat) : Bool := d.testBit (n - 1)
     (clear s c cond { rptOk := true, writes := [gd] } = true →
       exec (.and c cond w gd ga gb) s = out (some gd) (sign (a &&& b)) (a &&& b) ∧
       exec (.or c cond w gd ga gb) s = out (some gd) (sign (a ||| b)) (a ||| b) ∧
       exec (.xor c cond w gd ga gb) s = out (some gd) (sign (a ^^^ b)) (a ^^^ b) ∧
       (∃ d, (∀ j, d.testBit j = (decide (j < n) && a.testBit j && !b.testBit j)) ∧
         exec (.andn c cond w gd ga gb) s = out (some gd) (sign d) d) ∧
       (∃ z, z ≤ n ∧ (∀ j, n - z ≤ j → a.testBit j = false) ∧ (z < n → a.testBit (n - 1 - z) = true) ∧
         exec (.clz c cond w gd ga) s = out (some gd) false z) ∧
       exec (.popc c cond w gd ga) s = out (some gd) false ((List.range n).filter fun j => a.testBit j).length) ∧
     (clear s c cond { rptOk := true } = true → exec (.tst c cond w ga gb) s = out none (sign (a &&& b)) (a &&& b)) ∧
     (clear s c cond { rptOk := true, ext := true, writes := [gd] } = true →
       exec (.andi c cond w gd ga imm) s = out (some gd) (sign (a &&& i)) (a &&& i) ∧
       exec (.ori c cond w gd ga imm) s = out (some gd) (sign (a ||| i)) (a ||| i) ∧
       exec (.xori c cond w gd ga imm) s = out (some gd) (sign (a ^^^ i)) (a ^^^ i))) ∧
  (∀ (s : State) (c : CoreId) (cond : Cond) (w : Wf) (gd ga gb : Reg) (amt : BitVec 7), w ≠ 3 →
     clear s c cond { rptOk := true, writes := [gd] } = true →
     let n := widthOf w
     let k := operandCore s c
     let t := issueCycle s c
     let a := lowBits n (k.reg ga).val
     let out (d : Nat) (m : BitVec 6) (cf : Bool) : Host.Outcome State Fault Refusal :=
       .next (issued s c 1 (writes c t [(1, .reg gd (TWord.plain (signFill n d))),
         (1, .flags m (nzcv (d.testBit (n - 1)) (d == 0) cf false))]))
     let shifts (x : Nat) (l r ar rl rr : Host.Outcome State Fault Refusal) : Prop :=
       (x = 0 → l = out a 3 false ∧ r = out a 3 false ∧ ar = out a 3 false) ∧
       (x ≠ 0 → l = out (a * 2 ^ x % 2 ^ n) 7 (decide (x ≤ n) && a.testBit (n - x)) ∧
         r = out (a / 2 ^ x) 7 (decide (x ≤ n) && a.testBit (x - 1)) ∧
         ar = out ((toSigned n a / 2 ^ x) % 2 ^ n).toNat 7 (a.testBit (min (x - 1) (n - 1)))) ∧
       (∃ y, (∀ j, j < n → y.testBit ((j + x) % n) = a.testBit j) ∧ y < 2 ^ n ∧ rl = out y 3 false) ∧
       (∃ y, (∀ j, j < n → y.testBit j = a.testBit ((j + x) % n)) ∧ y < 2 ^ n ∧ rr = out y 3 false)
     shifts ((k.reg gb).val.toNat % 256) (exec (.sll c cond w gd ga gb) s) (exec (.srl c cond w gd ga gb) s)
       (exec (.sra c cond w gd ga gb) s) (exec (.rol c cond w gd ga gb) s) (exec (.ror c cond w gd ga gb) s) ∧
     shifts amt.toNat (exec (.slli c cond w gd ga amt) s) (exec (.srli c cond w gd ga amt) s)
       (exec (.srai c cond w gd ga amt) s) (exec (.roli c cond w gd ga amt) s) (exec (.rori c cond w gd ga amt) s))

/-- MUL and MULU give the low w bits of the exact product and V where it does not fit; MULH and MULHU, at 128 bits only,
give its bits 255 to 128 with V written 0; distances and costs are those of R106 (R105, R106). DIV, DIVU, REM and REMU
outside STEP mode: the quotient truncated toward zero or its remainder at w bits, with V written; by 0 the quotient is 0
and the remainder the dividend, V is 1 and INT_DIVZERO is raised where STATUS.DZE is set; the most negative value by -1
wraps with V = 1 and raises INT_OVERFLOW where STATUS.OE is set (R104, R105, R107). -/
def Obligations.ProductsAndQuotients : Prop :=
  (∀ (s : State) (c : CoreId) (cond : Cond) (w : Wf) (gd ga gb : Reg), w ≠ 3 →
     clear s c cond { rptOk := true, writes := [gd] } = true →
     let n := widthOf w
     let k := operandCore s c
     let t := issueCycle s c
     let a := lowBits n (k.reg ga).val
     let b := lowBits n (k.reg gb).val
     let sg (x : Nat) : Int := toSigned n x
     let out (signed traps : Bool) (d : Nat) (v : Bool) : Host.Outcome State Fault Refusal :=
       let bits := sigBits n signed b
       let m := if (operands s c).lean then 2 + cdiv bits 16 else if n = 128 then 3 else 2
       let cost := if (operands s c).lean then m else 1
       .next (issued s c (if traps then paCost k cost else cost) fun u =>
         causeIf (traps && stOE k.x.status && v) c cIntOverflow
           (writes c t [(m, .reg gd (TWord.plain (signFill n d))),
             (m, .flags 11 (nzcv (d.testBit (n - 1)) (d == 0) false v))] u))
     exec (.mul c cond w gd ga gb) s =
       out true true ((sg a * sg b) % 2 ^ n).toNat (decide (sg a * sg b < -2 ^ (n - 1) ∨ 2 ^ (n - 1) ≤ sg a * sg b)) ∧
     exec (.mulu c cond w gd ga gb) s = out false true (a * b % 2 ^ n) (decide (2 ^ n ≤ a * b)) ∧
     (w = 2 → exec (.mulh c cond w gd ga gb) s = out true false ((sg a * sg b) / 2 ^ 128 % 2 ^ 128).toNat false ∧
       exec (.mulhu c cond w gd ga gb) s = out false false (a * b / 2 ^ 128) false) ∧
     (w ≠ 2 → (operandCore s c).seq.imprecise = none → k.seq.imm = none → k.seq.rpt = none →
       ∀ i ∈ ([.mulh c cond w gd ga gb, .mulhu c cond w gd ga gb] : List Instr),
       ∃ x, exec i s = .next (deliver c t { code := 0x01, xpc := k.pc, xaddr := k.pc, xinfo := x, fault := true, back := false }
         (boundary s c)))) ∧
  (∀ (s : State) (c : CoreId) (cond : Cond) (w : Wf) (gd ga gb : Reg), w ≠ 3 →
     clear s c cond { rptOk := true, banned := true, writes := [gd] } = true → stepDue s c = false →
     let n := widthOf w
     let k := operandCore s c
     let t := issueCycle s c
     let a := lowBits n (k.reg ga).val
     let b := lowBits n (k.reg gb).val
     let sg (x : Nat) : Int := toSigned n x
     let count := if n = 128 then 26 else if n = 64 then 14 else 10
     let out (d : Nat) (v : Bool) : Host.Outcome State Fault Refusal :=
       .next (issued s c (paCost k count) fun u =>
         causeIf (b != 0 && stOE k.x.status && v) c cIntOverflow (causeIf (b == 0 && stDZE k.x.status) c cIntDivzero
           (writes c t [(count, .reg gd (TWord.plain (signFill n d))), (count, .flags 8 (nzcv false false false v))] u)))
     let least := decide (sg a = -2 ^ (n - 1)) && decide (sg b = -1)
     (b = 0 → exec (.div c cond w gd ga gb) s = out 0 true ∧ exec (.divu c cond w gd ga gb) s = out 0 true ∧
       exec (.rem c cond w gd ga gb) s = out a true ∧ exec (.remu c cond w gd ga gb) s = out a true) ∧
     (b ≠ 0 →
       exec (.div c cond w gd ga gb) s = out ((sg a).tdiv (sg b) % 2 ^ n).toNat least ∧
       exec (.divu c cond w gd ga gb) s = out (a / b) false ∧
       exec (.rem c cond w gd ga gb) s = out ((sg a).tmod (sg b) % 2 ^ n).toNat least ∧
       exec (.remu c cond w gd ga gb) s = out (a % b) false))

/-- The division steps (R111, R112): DSTEPS and DSTEPSU put 0 and the magnitude of the dividend into the pair and set the
flags; DSTEP and DSTEPU make two trials on the pair, each taking one bit of the quotient register into the remainder;
DSTEPF clears and corrects the pair by the flags; the steps write no flags. n trials of the division step make a
division (R112, R113): from remainder 0 and quotient a, with a divisor d from 1 to 2^n - 1, they leave a mod d and a
divided by d. -/
def Obligations.DivisionSteps : Prop :=
  (∀ (s : State) (c : CoreId) (cond : Cond) (w : Wf) (gd ga gb : Reg), w ≠ 3 → gd.val % 2 = 0 → gd ≠ 0 →
     clear s c cond { rptOk := true, writes := [gd, pairReg gd] } = true →
     let n := widthOf w
     let k := operandCore s c
     let t := issueCycle s c
     let a := lowBits n (k.reg ga).val
     let b := lowBits n (k.reg gb).val
     let rem := lowBits n (k.reg gd).val
     let quo := lowBits n (k.reg (pairReg gd)).val
     let neg := a.testBit (n - 1)
     let ovf := decide (a = 2 ^ (n - 1)) && decide (b = 2 ^ n - 1)
     let pair (x y : Nat) : List (Nat × WriteWhat) :=
       [(1, .reg gd (TWord.plain (signFill n x))), (1, .reg (pairReg gd) (TWord.plain (signFill n y)))]
     let trial (d : Nat) (p : Nat × Nat) : Nat × Nat :=
       let x := 2 * p.1 + (if p.2.testBit (n - 1) then 1 else 0)
       if d ≤ x then ((x - d) % 2 ^ n, p.2 * 2 % 2 ^ n + 1) else (x % 2 ^ n, p.2 * 2 % 2 ^ n)
     let two (d : Nat) := trial d (trial d (rem, quo))
     let minus (yes : Bool) (x : Nat) : Nat := if yes then (2 ^ n - x) % 2 ^ n else x
     let st := k.x.status
     let fin := (minus (st.getLsbD 0) rem, minus (st.getLsbD 2) (if st.getLsbD 1 then 0 else quo))
     exec (.dsteps c cond w gd ga gb) s = .next (issued s c (paCost k 1) fun u =>
       causeIf (b != 0 && ovf && stOE k.x.status) c cIntOverflow (causeIf (b == 0 && stDZE k.x.status) c cIntDivzero
         (writes c t (pair 0 (toSigned n a).natAbs ++
           [(1, .flags 15 (nzcv neg (b == 0) (neg != b.testBit (n - 1)) (b == 0 || ovf)))]) u))) ∧
     exec (.dstepsu c cond w gd ga gb) s = .next (issued s c (paCost k 1) fun u =>
       causeIf (b == 0 && stDZE k.x.status) c cIntDivzero
         (writes c t (pair 0 a ++ [(1, .flags 15 (nzcv false (b == 0) false (b == 0)))]) u)) ∧
     exec (.dstep c cond w gd gb) s =
       .next (issued s c 1 (writes c t (pair (two (toSigned n b).natAbs).1 (two (toSigned n b).natAbs).2))) ∧
     exec (.dstepu c cond w gd gb) s = .next (issued s c 1 (writes c t (pair (two b).1 (two b).2))) ∧
     exec (.dstepf c cond w gd) s =
       .next (issued s c 1 (writes c t (pair fin.1 fin.2)))) ∧
  (∀ (n d a : Nat), 0 < n → 0 < d → d < 2 ^ n → a < 2 ^ n →
     Nat.repeat (divTrial n d) n (0, a) = (a % d, a / d))

/-! ## Loads and stores -/

/-- The scalar loads that pass their checks and meet no hold issue at a cost of 1 (R52, R56, R75, R114, R116, R117): of LDS
and the LIS the read is put into the load's E1, with what the store buffer forwards, its result 4 cycles after issue; of
anything else the load is sent to the fabric. In E1 the bytes forwarded and those of memory are read, sign- or zero-
extended, LDCAP's with its tag, and the register is written in the result's cycle. -/
def Obligations.ScalarLoads : Prop :=
  (∀ (s : State) (c : CoreId) (cond : Cond) (g gb : Reg) (off : BitVec 12),
    clear s c cond { ext := true } = true →
    let o := operands s c
    let k := operandCore s c
    let t := issueCycle s c
    let a := authOf o c gb (offAddr k off)
    let loads (n : Nat) (kind : AccKind) (dest : LoadDest) (i : Instr) : Prop :=
      accessFault o c a n kind = none → accessHeld k t (loadNeeds c a.ea n) = none →
      (∀ x, regionOf c a.ea n = some (.lds x) → exec i s = .next (issued s c 1 fun u =>
        sendLocal c t dest (t + 4) [(x, forwarded k.ms t a.ea n)] (forwardedTag k.ms t a.ea) (usePort c t 1 (checkKeys c a n u)))) ∧
      (∀ x, regionOf c a.ea n = some (.lis x) → exec i s = .next (issued s c 1 fun u =>
        sendLocal c t dest (t + 4) [(x, List.replicate n none)] none (checkKeys c a n u))) ∧
      (∀ r, regionOf c a.ea n = some r → r.outside = true → exec i s = .next (issued s c 1 fun u =>
        sendLoad c t a.ea n dest (capKey a.cap.val) k.atBase (checkKeys c a n u)))
    let plain (n : Nat) (sgn : Bool) (i : Instr) : Prop := loads n .load (.reg g sgn) i
    plain 1 true (.ldb c cond g gb off) ∧ plain 1 false (.ldbu c cond g gb off) ∧
    plain 2 true (.ldh c cond g gb off) ∧ plain 2 false (.ldhu c cond g gb off) ∧
    plain 4 true (.ldw c cond g gb off) ∧ plain 4 false (.ldwu c cond g gb off) ∧
    plain 8 true (.ldd c cond g gb off) ∧ plain 8 false (.lddu c cond g gb off) ∧
    plain 16 false (.ldq c cond g gb off) ∧
    ((s.core c).legacy = false → loads 16 .loadCap (.cap g) (.ldcap c cond g gb off))) ∧
  (∀ (u : State) (c : CoreId) (x due seq at_ n : Nat) (fwd : List (Option Byte)) (tag : Option Bool) (g : Reg) (sgn : Bool),
    eccHit u at_ n = none → u.eccSoft = [] → fwd.length = n →
    let bs := mergeBytes fwd (u.bytes at_ n)
    let load (dest : LoadDest) : LocalLoad := { dest := dest, seq := seq, due := due, parts := [(at_, fwd)], tag := tag, got := [] }
    let reads (dest : LoadDest) : State := performTimed { cycle := x, rank := 0, core := c, what := .load (load dest) } u
    (∀ j, j < n → bs[j]? = match fwd[j]? with
      | some (some b) => some b
      | _ => some (memGet u.mem (at_ + j))) ∧
    reads (.reg g sgn) = pushAt c due seq (.reg g (TWord.plain
      (if sgn then BitVec.ofInt 128 (toSigned (8 * n) (ofLe bs)) else BitVec.ofNat 128 (ofLe bs)))) u ∧
    reads (.cap g) = pushAt c due seq (.reg g (suppress u { val := BitVec.ofNat 128 (ofLe bs), tag := tag.getD (tagGet u at_) })) u)

/-- The scalar stores that pass their checks and meet no hold issue at a cost of 1 (R39, R72, R84, R114, R116): the low
bytes of the register enter the store buffer of LDS, are put into the store's E1 for the LIS, or on a lone core are sent
to the fabric; STCAP's with its tag. In their cycle the bytes are in memory, the tags of the words they touch cleared or
as STCAP has them. -/
def Obligations.ScalarStores : Prop :=
  (∀ (s : State) (c : CoreId) (cond : Cond) (g gb : Reg) (off : BitVec 12),
    clear s c cond { ext := true } = true →
    let o := operands s c
    let k := operandCore s c
    let t := issueCycle s c
    let a := authOf o c gb (offAddr k off)
    let v := k.reg g
    let stores (n : Nat) (kind : AccKind) (tag : Option Bool) (i : Instr) : Prop :=
      let bs := leBytes n v.val.toNat
      accessFault o c a n kind = none → accessHeld k t (storeNeeds c a.ea n) = none →
      (∀ x, regionOf c a.ea n = some (.lds x) → exec i s = .next (issued s c 1 fun u =>
        enterBuffer c t a.ea bs tag (checkKeys c a n u))) ∧
      (∀ x, regionOf c a.ea n = some (.lis x) → exec i s = .next (issued s c 1 fun u =>
        schedule c (t + 2) 1 (.put x bs tag) (checkKeys c a n u))) ∧
      (∀ r, regionOf c a.ea n = some r → r.outside = true → paired o c = false → exec i s = .next (issued s c 1 fun u =>
        sendStore c k.seq.wseq t a.ea bs tag (capKey a.cap.val) k.atBase (checkKeys c a n u))) ∧
      (∀ r, regionOf c a.ea n = some r → r.outside = true → paired o c = true → exec i s = .next (issued s c 1 fun u =>
        holdAct c t 0 (.store a.ea bs tag (capKey a.cap.val) k.atBase) (checkKeys c a n u)))
    stores 1 .store none (.stb c cond g gb off) ∧ stores 2 .store none (.sth c cond g gb off) ∧
    stores 4 .store none (.stw c cond g gb off) ∧ stores 8 .store none (.std c cond g gb off) ∧
    stores 16 .store none (.stq c cond g gb off) ∧
    ((s.core c).legacy = false → stores 16 (.storeCap g v) (some v.tag) (.stcap c cond g gb off))) ∧
  (∀ (u : State) (c : CoreId) (d x : Nat) (bs : List Byte), partWords u x bs.length = [] →
    performTimed { cycle := d, rank := 1, core := c, what := .put x bs none } u = storeBytes u x bs ∧
    ∀ g, performTimed { cycle := d, rank := 1, core := c, what := .put x bs (some g) } u = tagSet (putBytes u x bs) x g)

/-- An instruction with a reserved width, register pair, condition, count or mode, or one that its level or the division
mode bans, raises ILLEGAL in DE whatever its condition, its own address in XPC and XADDR, and has no other effect (R69,
R94, R98, R110, R111, R398). A scalar access that fails a check raises the cause of the first one that fails, precisely,
in the cycle of issue, and nothing of the access happens (R284, R303). -/
def Obligations.IllegalFormsAndRefusedAccesses : Prop :=
  (∀ (s : State) (c : CoreId) (cond : Cond) (w : Wf) (g ga gb : Reg) (imm : BitVec 10) (amt : BitVec 7) (off : BitVec 12)
     (value : BitVec 22), clear s c 14 {} = true → (operandCore s c).seq.imprecise = none →
     let k := operandCore s c
     let illegal (i : Instr) : Prop := ∃ x, exec i s = .next (deliver c (issueCycle s c)
       { code := 0x01, xpc := k.pc, xaddr := k.pc, xinfo := x, fault := true, back := false } (boundary s c))
     (∀ i ∈ ([.add c cond 3 g ga gb, .sub c cond 3 g ga gb, .adc c cond 3 g ga gb, .sbc c cond 3 g ga gb, .neg c cond 3 g gb,
         .and c cond 3 g ga gb, .or c cond 3 g ga gb, .xor c cond 3 g ga gb, .andn c cond 3 g ga gb, .cmp c cond 3 ga gb,
         .tst c cond 3 ga gb, .sll c cond 3 g ga gb, .srl c cond 3 g ga gb, .sra c cond 3 g ga gb, .rol c cond 3 g ga gb,
         .ror c cond 3 g ga gb, .clz c cond 3 g ga, .popc c cond 3 g ga, .addi c cond 3 g ga imm, .subi c cond 3 g ga imm,
         .andi c cond 3 g ga imm, .ori c cond 3 g ga imm, .xori c cond 3 g ga imm, .cmpi c cond 3 ga imm,
         .slli c cond 3 g ga amt, .srli c cond 3 g ga amt, .srai c cond 3 g ga amt, .roli c cond 3 g ga amt,
         .rori c cond 3 g ga amt, .mul c cond 3 g ga gb, .mulu c cond 3 g ga gb, .div c cond 3 g ga gb, .divu c cond 3 g ga gb,
         .rem c cond 3 g ga gb, .remu c cond 3 g ga gb, .dcvb c cond 3 g ga, .dcvd c cond 3 g ga, .rpt c cond 0,
         .u8v c cond 3 g ga gb] : List Instr), illegal i) ∧
     (w ≠ 2 → illegal (.mulh c cond w g ga gb) ∧ illegal (.mulhu c cond w g ga gb)) ∧
     (w = 3 ∨ g.val % 2 = 1 ∨ g = 0 → ∀ i ∈ ([.dsteps c cond w g ga gb, .dstepsu c cond w g ga gb, .dstep c cond w g gb,
         .dstepu c cond w g gb, .dstepf c cond w g] : List Instr), illegal i) ∧
     (g.val % 2 = 1 ∨ g = 0 → ∀ i ∈ ([.ddiv c cond g ga gb, .fdstepd c cond g ga gb, .fdstepr c cond g ga, .fdstep c cond g,
         .fdstepf c cond g] : List Instr), illegal i) ∧
     (stepDue s c = true → ∀ i ∈ ([.div c cond w g ga gb, .divu c cond w g ga gb, .rem c cond w g ga gb,
         .remu c cond w g ga gb, .fdiv c cond g ga gb, .fsqrt c cond g ga] : List Instr), illegal i) ∧
     (cond ≠ 14 → illegal (.imm c cond value) ∧ illegal (.rpt c cond g)) ∧
     (∀ sr : BitVec 6, 0x17 < sr.toNat ∨ (sysBL sr = true ∧ (s.core c).atBase = false) →
       illegal (.mfs c cond g sr) ∧ illegal (.mts c cond g sr)) ∧
     ((s.core c).legacy = true → ∀ i ∈ ([.ldcap c cond g gb off, .stcap c cond g gb off, .cmov c cond g ga, .csetb c cond g ga gb,
         .candp c cond g ga gb, .cseal c cond g ga gb, .cunseal c cond g ga gb, .csetkey c cond g ga gb, .cinvoke c cond ga gb,
         .keyw c cond ga gb, .keyr c cond g ga] : List Instr), illegal i) ∧
     ((s.core c).atBase = false → illegal (.wpjoin c cond gb) ∧ illegal (.wpleave c cond))) ∧
  (∀ (s : State) (c : CoreId) (cond : Cond) (g gb : Reg) (off : BitVec 12) (n : Nat) (i : Instr),
     clear s c cond { ext := true } = true → (operandCore s c).seq.imprecise = none →
     let o := operands s c
     let k := operandCore s c
     let t := issueCycle s c
     let a := authOf o c gb (offAddr k off)
     (n, i) ∈ ([(1, .ldb c cond g gb off), (2, .ldh c cond g gb off), (4, .ldw c cond g gb off), (8, .ldd c cond g gb off),
       (16, .ldq c cond g gb off)] : List (Nat × Instr)) → accessHeld k t (loadNeeds c a.ea n) = none →
     let traps (q : Trap) : Prop := exec i s = .next (deliver c t (q.cause k) o)
     (a.cap.tag = false → traps (capTrap 0x04 a.ea a.reg)) ∧
     (a.cap.tag = true → capOtype a.cap.val ≠ 0 → traps (capTrap 0x07 a.ea a.reg)) ∧
     (a.cap.tag = true → capOtype a.cap.val = 0 → hasPerm a.cap.val permLD = false → traps (capTrap 0x06 a.ea a.reg)) ∧
     (a.cap.tag = true → capOtype a.cap.val = 0 → permFault k.atBase a n .load = none → inBounds a.cap.val a.ea n = false →
       traps (capTrap 0x05 a.ea a.reg)))

/-- NOP does nothing but issue; IMM leaves its value for the next instruction; RPT leaves its count; each at a cost of 1
(R97, R121, R178). An instruction whose condition does not hold is annulled: it takes its slot at a cost of 1 and has no
other effect, whatever its operands (R64, R65); a branch that is not taken has its two delay slots all the same (R67). -/
def Obligations.NopPrefixesAndAnnulment : Prop :=
  (∀ (s : State) (c : CoreId) (value : BitVec 22) (gc : Reg) (cond : Cond),
     (clear s c cond {} = true → exec (.nop c cond) s = .next (issued s c 1 id)) ∧
     (clear s c 14 {} = true → lastOfGroup (s.core c).seq = false →
       exec (.imm c 14 value) s = .next (issued s c 1 fun u => u.modSeq c fun q => { q with imm := some value }) ∧
       ((issued s c 1 fun u => u.modSeq c fun q => { q with imm := some value }).core c).seq.imm = some value) ∧
     (clear s c 14 { banned := true } = true → gc ≠ 0 →
       let r : Repeat := { gc := gc, left := ((operandCore s c).reg gc).val.setWidth 32, fresh := true }
       exec (.rpt c 14 gc) s = .next (issued s c 1 fun u => u.modSeq c fun q => { q with rpt := some r }) ∧
       ((issued s c 1 fun u => u.modSeq c fun q => { q with rpt := some r }).core c).seq.rpt = some r)) ∧
  (∀ (s : State) (c : CoreId) (cond : Cond) (gd ga gb : Reg) (off : BitVec 12) (disp : BitVec 21) (code : BitVec 12),
     condHolds cond (operandCore s c).x.status = false →
     let nothing : Host.Outcome State Fault Refusal := .next (issued s c 1 id)
     (clear s c 14 { rptOk := true, writes := [gd] } = true → exec (.add c cond 2 gd ga gb) s = nothing) ∧
     (clear s c 14 { ext := true } = true → exec (.ldq c cond gd gb off) s = nothing ∧ exec (.stq c cond gd gb off) s = nothing) ∧
     (clear s c 14 { banned := true, rptOk := true, writes := [gd] } = true → exec (.dadd c cond gd ga gb) s = nothing) ∧
     (clear s c 14 { banned := true } = true → exec (.svc c cond code) s = nothing ∧ exec (.xret c cond) s = nothing ∧
       ∃ u, exec (.b c cond disp) s = .next u ∧ (u.core c).regs = (operandCore s c).regs ∧
         (u.core c).seq.branch = some { left := 2, taken := false, target := TWord.null, invoked := none, seq := (operandCore s c).seq.wseq }))

/-- MFS writes the value of each system register one cycle after issue (R122, R123, R124): the reserved bits 0 and the flags
of STATUS as they stand. A pair reads CYCLE, COREID and TAI once (R89); TAI is that of either of two adjacent ticks (log
entry 1); MFS of DPDATA is DPDATA_READ. Without SYSREG in the PCC it raises CAP_PERM. MTS of a listed system register
other than STATUS and FPFLAGS, of DPCTL with GO = 0, puts its write in flight at distance 2; of STATUS it begins a mode
shadow of three instructions; of FPFLAGS its write comes before the flags of its cycle and is seen from distance 3 on;
of DPCTL with GO = 1 it is DPCTL_GO and of DPDATA it is DPDATA_WRITE (R56, R81, R122, R233). What a system register
keeps of the word that MTS writes (R123-R126, R134, R191, R227, R228, R309, R310): its writable bits; VL a multiple of
128 from 128 to 4096; DCTL keeps its rounding mode where the new one is 6 or 7; STATUS keeps LG and LSV; a read-only
register is unchanged. -/
def Obligations.SystemRegisters : Prop :=
  (∀ (s : State) (c : CoreId) (cond : Cond) (g : Reg), clear s c cond {} = true →
     let o := operands s c
     let k := operandCore s c
     let t := issueCycle s c
     let num (n : Nat) : TWord := TWord.plain (BitVec.ofNat 128 n)
     let reads (sr : BitVec 6) (v : TWord) : Prop := exec (.mfs c cond g sr) s = .next (issued s c 1 (writes c t [(1, .reg g v)]))
     let shares (sr : BitVec 6) (v : Nat) (f : State → State) : Prop := exec (.mfs c cond g sr) s = .next (issued s c 1 fun u =>
       let p := sharedValue c (BitVec.ofNat 128 v) (f u)
       pushReg c (t + 1) g p.1 p.2)
     (hasPerm k.x.pcc.val permSYSREG = true →
       (∀ p ∈ ([(0x00, num k.x.status.toNat), (0x01, num k.x.cause.toNat), (0x02, suppress o k.x.xpc), (0x03, num k.x.xstat.toNat),
         (0x04, num k.x.xaddr.toNat), (0x05, num k.x.xinfo.toNat), (0x06, suppress o k.x.xframe), (0x07, suppress o k.x.ivec),
         (0x10, num k.regs.vl.toNat), (0x11, num k.regs.fpctl.toNat), (0x12, num k.regs.fpflags.toNat),
         (0x13, num k.regs.dctl.toNat), (0x14, suppress o k.dp.addr), (0x15, TWord.plain (dpctlRead k.dp o.now)),
         (0x17, num k.dp.stall.toNat)] : List (BitVec 6 × TWord)), reads p.1 p.2) ∧
       ((s.core c).atBase = true → reads 0x08 (suppress o k.x.bpc) ∧ reads 0x09 (num k.x.bstat.toNat) ∧
         reads 0x0A (num k.x.bcause.toNat) ∧ reads 0x0B (num k.x.binfo.toNat) ∧ reads 0x0F (num (lkstat o c).toNat)) ∧
       shares 0x0C (o.now % 2 ^ 64) id ∧ shares 0x0D c.val id ∧ shares 0x0E (taiRead o).1.toNat (fun u => (taiRead u).2)) ∧
     exec (.mfs c cond g 0x16) s = exec (.dpdataRead c cond g) s ∧
     (hasPerm k.x.pcc.val permSYSREG = false → k.seq.imprecise = none → ∀ sr : BitVec 6, sr.toNat ≤ 0x17 → sysBL sr = false →
       exec (.mfs c cond g sr) s = .next (deliver c t ((capTrap 0x06 0 32).cause k) o))) ∧
  (∀ (s : State) (c : CoreId) (cond : Cond) (g : Reg) (sr : BitVec 6),
     hasPerm (operandCore s c).x.pcc.val permSYSREG = true →
     let k := operandCore s c
     let t := issueCycle s c
     let v := k.reg g
     (clear s c cond {} = true → sr.toNat ≤ 0x17 → sr ≠ 0x00 → sr ≠ 0x12 → (sr = 0x15 → v.val.getLsbD 31 = false) →
       (sysBL sr = true → (s.core c).atBase = true) →
       exec (.mts c cond g sr) s = .next (issued s c 1 (writes c t
         [(2, .sys sr (if sysIsCap sr then v else TWord.plain v.val))]))) ∧
     (clear s c cond {} = true →
       exec (.mts c cond g 0x12) s = .next (issued s c 1 (pushAt c (t + 3) 0 (.sys 0x12 (TWord.plain v.val))))) ∧
     exec (.mts c cond g 0x15) s = exec (.dpctlGo c cond g) s ∧ exec (.mts c cond g 0x16) s = exec (.dpdataWrite c cond g) s ∧
     (clear s c cond { banned := true } = true →
       let u := issued s c 1 fun u => u.modSeq c fun q => { q with shadow := some { value := v.val.setWidth 32, left := 3 } }
       exec (.mts c cond g 0x00) s = .next u ∧ (u.core c).seq.shadow = some { value := v.val.setWidth 32, left := 3 } ∧
       (u.core c).x.status = k.x.status)) ∧
  (∀ (k : Core) (v : TWord),
     let w (sr : BitVec 6) : Core := applyWrite k (.sys sr v)
     (w 0x00).x.status = ((v.val.setWidth 32 &&& 0xF3EF003F) ||| (k.x.status &&& 0x0C000000)) ∧
     (w 0x01).x.cause = v.val.setWidth 8 ∧ (w 0x02).x.xpc = v ∧ (w 0x03).x.xstat = (v.val.setWidth 32 &&& 0xFFFF01FF) ∧
     (w 0x04).x.xaddr = v.val.setWidth 52 ∧ (w 0x05).x.xinfo = v.val.setWidth 64 ∧ (w 0x06).x.xframe = v ∧
     (w 0x07).x.ivec = v ∧ (w 0x08).x.bpc = v ∧ (w 0x0A).x.bcause = v.val.setWidth 8 ∧
     (w 0x10).regs.vl.toNat % 128 = 0 ∧ 128 ≤ (w 0x10).regs.vl.toNat ∧ (w 0x10).regs.vl.toNat ≤ 4096 ∧
     (128 ≤ v.val.toNat % 2 ^ 32 → v.val.toNat % 2 ^ 32 ≤ 4096 →
       (w 0x10).regs.vl.toNat = v.val.toNat % 2 ^ 32 / 128 * 128) ∧
     (w 0x11).regs.fpctl = (v.val.setWidth 32 &&& 0xF8F) ∧ (w 0x12).regs.fpflags = v.val.setWidth 5 ∧
     (w 0x13).regs.dctl.extractLsb' 0 3 = (if (v.val.extractLsb' 0 3).toNat < 6 then v.val.extractLsb' 0 3
       else k.regs.dctl.extractLsb' 0 3) ∧
     (w 0x14).dp.addr = v ∧ (w 0x17).dp.stall = v.val.setWidth 64 ∧
     (∀ sr : BitVec 6, sr = 0x0C ∨ sr = 0x0D ∨ sr = 0x0E ∨ sr = 0x0F ∨ 0x18 ≤ sr.toNat → w sr = k))

/-! ## Exceptions -/

/-- Which entry a cause meets (R268, R300): a MACHINE_CHECK is a base cause; base level escalates any other; a fault at
legacy level whose LGTRAP bit is set becomes LEGACY_TRAP; a fault under FM escalates; so does any cause without a valid
XFRAME and IVEC, with both bits where both fail; every other one is a native entry. FM is that of the STATUS in force in
the cycle of the fault (the model's choice for a fault in a mode shadow, log entry 73). A cause that comes some cycles
after the issue of its instruction (R171, R223, R232): nothing issues before its cycle, and at that boundary, with no
base cause or imprecise cause due, it is delivered, whatever word is offered there. -/
def Obligations.CausesAreDelivered : Prop :=
  (∀ (s : State) (c : CoreId) (a : Nat) (q : Cause),
     let s' := s.modCore c (settleCore true a)
     let k := s'.core c
     let base (code : BitVec 8) (bits : BitVec 64) : State := enterBase c a code (escInfo q bits) q.xpc q.back q.xaddr s'
     let fault := q.fault
     let fm := stFM ((s.core c).modeStatus a)
     let badX := xframeValid k.x.xframe = false
     let badI := ivecValid k.x.ivec = false
     (q.code = 0x41 → paired s c = false → deliver c a q s =
       enterBase c a 0x41 (q.xinfo <<< 32) q.xpc q.back q.xaddr (recordEcc q.xaddr.toNat s')) ∧
     (q.code ≠ 0x41 →
       (k.atBase = true → deliver c a q s = base 0x40 1) ∧
       (k.atBase = false → fault = true → k.legacy = true → s.cfg.lgtrap.getLsbD c.val = true → deliver c a q s = base 0x46 0) ∧
       (k.atBase = false → (fault && k.legacy && s.cfg.lgtrap.getLsbD c.val) = false →
         (fault = true → fm = true → deliver c a q s = base 0x40 2) ∧
         ((fault && fm) = false →
           (badX → ¬badI → deliver c a q s = base 0x40 8) ∧ (¬badX → badI → deliver c a q s = base 0x40 4) ∧
           (badX → badI → deliver c a q s = base 0x40 12) ∧
           (¬badX → ¬badI → deliver c a q s = enterNative c a q s'))))) ∧
  (∀ (s : State) (c : CoreId) (q : Cause) (f : Form) (body : Nat → State → Body),
     let t := issueCycle s c
     let v := arrived s c
     let b := atBoundary c t v
     canIssue v c = true → (v.core c).seq.str = none → (v.core c).seq.trap = some q → baseDue c t b = none →
     impreciseDue c t true (b.modCore c (settleCore false t)) = none →
     issue c f body s = .next (deliver c t q b) ∧ (s.core c).seq.nextIssue ≤ t)

/-- Native entry in cycle A (R316, R317): XPC, XSTAT, CAUSE, XADDR and XINFO are saved, STATUS keeps its flags alone with FM
1 and IPL 15, the PCC is IVEC unsealed, the frame ring advances, the handler issues at A + 14; no general register, no
other core and no byte of memory changes at A; the frame's words are written in A + 4 to A + 8. Base entry in cycle A
below depth 8, with no MACHINE_CHECK due during it (R316, R317, R318): BPC, BSTAT, BCAUSE and BINFO are saved, with BASE
where the program was at base level; STATUS as for native entry; the PCC is the root capability at 0x100040; the depth
rises by one; the frame of that depth is written in A + 4 to A + 8. At depth 8 the core locks up instead, and it does in
the cycle in which a MACHINE_CHECK falls due during the entry (R326). -/
def Obligations.EntriesSaveAndVector : Prop :=
  (∀ (s : State) (c : CoreId) (a : Nat) (q : Cause),
     let k := entryCore a (s.core c)
     let u := enterNative c a q s
     let x := (u.core c).x
     let r := branchRecord k.seq.branch q.back
     let f := (capAddr k.x.xframe.val).toNat
     x.xpc = { k.x.pcc with val := setAddr k.x.pcc.val q.xpc } ∧ x.xstat = ((k.x.status &&& 0xFFFF003F) ||| r.bits) ∧
     x.cause = q.code ∧ x.xaddr = q.xaddr ∧ x.xinfo = q.xinfo ∧ x.status = ((k.x.status &&& 0x3F) ||| 0x008F0000) ∧
     x.pcc = unsealed k.x.ivec ∧ x.xframe = frameAdvance k.x.xframe ∧ x.ivec = k.x.ivec ∧ x.depth = k.x.depth ∧
     (u.core c).seq.nextIssue = a + 14 ∧ (u.core c).seq.branch = none ∧ (u.core c).seq.imm = none ∧ (u.core c).seq.rpt = none ∧
     (u.core c).regs = k.regs ∧ (∀ j, j ≠ c → u.core j = s.core j) ∧
     u.mem = s.mem ∧ u.tags = s.tags ∧ u.timed = (writeFrame c a f x.xpc x.xstat q.code q.xinfo q.xaddr r s).timed) ∧
  (∀ (s : State) (c : CoreId) (a : Nat) (code : BitVec 8) (info : BitVec 64) (pc baddr : Addr) (back : Bool),
     let k := entryCore a (s.core c)
     let u := enterBase c a code info pc back baddr s
     let r := branchRecord k.seq.branch back
     (8 ≤ k.x.depth → (u.core c).x.locked = true) ∧
     (k.x.depth < 8 → (∀ m ∈ k.seq.mcDue, m.cycle < a ∨ a + 13 < m.cycle) →
       (u.core c).x.bpc = { k.x.pcc with val := setAddr k.x.pcc.val pc } ∧
       (u.core c).x.bstat = (((k.x.status &&& 0xFFFF003F) ||| r.bits) ||| (if 1 ≤ k.x.depth then 0x200 else 0)) ∧
       (u.core c).x.bcause = code ∧ (u.core c).x.binfo = info ∧ (u.core c).x.depth = k.x.depth + 1 ∧
       (u.core c).x.status = ((k.x.status &&& 0x3F) ||| 0x008F0000) ∧
       (u.core c).x.pcc = { val := setAddr rootCap.val 0x100040, tag := true } ∧
       (u.core c).seq.nextIssue = a + 14 ∧ (u.core c).regs = k.regs ∧ (u.core c).x.xpc = k.x.xpc ∧
       (∀ j, j ≠ c → u.core j = s.core j) ∧
       u.mem = s.mem ∧ u.tags = s.tags ∧
       u.timed = (writeFrame c a (framesOff + 0x100 * k.x.depth) (u.core c).x.bpc (u.core c).x.bstat code info baddr r s).timed) ∧
     (k.x.depth < 8 → ∀ m ∈ k.seq.mcDue, (∀ m' ∈ k.seq.mcDue, m' = m) → a ≤ m.cycle → m.cycle ≤ a + 13 →
       (m.cycle ≤ s.now → (u.core c).x.locked = true) ∧
       (s.now < m.cycle → { cycle := m.cycle, rank := 0, core := c, what := .lockup } ∈ u.timed)))

/-- The frame of an entry (R313) is put into cycles A + 4 to A + 8 and nothing changes before; once its words are written it
reads back: XPC with its tag, the saved status, the cause and XINFO, XADDR, and the two words of the branch record with
their tags; the words without a capability have their tags cleared, no other byte changes, and the store buffer is not
used. An entry steps the frame ring on by 128 bytes, and back to its base after its last frame; XRET undoes that step
(R312, R314). -/
def Obligations.EntryFrames : Prop :=
  (∀ (s : State) (c : CoreId) (a off : Nat) (pc : TWord) (stat : BitVec 32) (code : BitVec 8) (info : BitVec 64) (addr : Addr)
     (r : BranchRecord), Memory.wf s.mem = true → off % 16 = 0 → off + 80 ≤ ldsSize →
     let v := writeFrame c a off pc stat code info addr r s
     { v with timed := s.timed } = s ∧
     ∃ l : List Timed, (∀ x, x ∈ v.timed ↔ x ∈ l ∨ x ∈ s.timed) ∧ l.map Timed.cycle = [a + 4, a + 5, a + 6, a + 7, a + 8] ∧
       (∀ x ∈ l, x.core = c) ∧
       let u := l.foldl (fun z x => performTimed x z) s
       let f := ldsBase c + off
       loadCap u f = pc ∧ ofLe (u.bytes (f + 16) 4) = stat.toNat ∧ u.bytes (f + 20) 4 = [code, 0, 0, 0] ∧
       ofLe (u.bytes (f + 24) 8) = info.toNat ∧ ofLe (u.bytes (f + 32) 16) = addr.toNat ∧ tagGet u (f + 16) = false ∧
       tagGet u (f + 32) = false ∧ loadCap u (f + 48) = r.target ∧ loadCap u (f + 64) = r.invoked ∧ u.cores = s.cores ∧
       ∀ y, y < f ∨ f + 80 ≤ y → memGet u.mem y = memGet s.mem y) ∧
  (∀ (x : TWord) (b : Bounds), xframeValid x = true → capBounds x.val = some b →
     let a := (capAddr x.val).toNat
     (capAddr (frameAdvance x).val).toNat = (if b.top < a + 256 then b.base else a + 128) ∧
     capBounds (frameAdvance x).val = some b ∧ (frameAdvance x).tag = x.tag ∧ capPerms (frameAdvance x).val = capPerms x.val ∧
     frameRetreat (frameAdvance x) = x)

/-- XRET that passes the checks of R319 restores the PCC and STATUS together, from the XPC and XSTAT that it reads in IS or
at base level from BPC and BSTAT with the depth one less, and the resume point issues 8 cycles later (R319, R320). A
branch record is read in t + 1 and gives the branch again (R321), and below depth 2 the registers of base entry are
reloaded from the frame in t + 2 (R320; the cycles are the model's choice, log entry 96). -/
def Obligations.ReturnRestores : Prop :=
  (∀ (s : State) (c : CoreId) (cond : Cond), clear s c cond { banned := true } = true →
    let k := operandCore s c
    let t := issueCycle s c
    let record (f : Nat) (st : BitVec 32) : Timed := { cycle := t + 1, rank := 0, core := c, what := .record f st k.seq.wseq }
    let reload (f : Nat) : Timed := { cycle := t + 2, rank := 0, core := c, what := .reload f }
    hasPerm k.x.pcc.val permSYSREG = true → xretRefusal k = none → ∃ u, exec (.xret c cond) s = .next u ∧
      (u.core c).seq.nextIssue = t + 8 ∧ (u.core c).regs = (retire (t + 3) k).regs ∧ u.mem = (operands s c).mem ∧
      (u.core c).seq.branch = none ∧
      (k.x.depth = 0 →
        (u.core c).x.pcc = k.x.xpc ∧ (u.core c).x.status = (k.x.xstat &&& 0xFFEF003F) ∧ (u.core c).x.depth = 0 ∧
        (u.core c).x.xframe = (if xframeValid k.x.xframe then frameRetreat k.x.xframe else k.x.xframe) ∧
        (k.x.xstat.getLsbD 8 = false → u.timed = (operands s c).timed) ∧
        (k.x.xstat.getLsbD 8 = true → record (ldsBase c + (capAddr (u.core c).x.xframe.val).toNat) k.x.xstat ∈ u.timed)) ∧
      (1 ≤ k.x.depth →
        (u.core c).x.pcc = k.x.bpc ∧ (u.core c).x.status = (k.x.bstat &&& 0xFFEF003F) ∧ (u.core c).x.depth = k.x.depth - 1 ∧
        (u.core c).x.xframe = k.x.xframe ∧
        (k.x.bstat.getLsbD 8 = true → record (ldsBase c + framesOff + 0x100 * (k.x.depth - 1)) k.x.bstat ∈ u.timed) ∧
        (2 ≤ k.x.depth → reload (ldsBase c + framesOff + 0x100 * (k.x.depth - 2)) ∈ u.timed))) ∧
  (∀ (u : State) (c : CoreId) (x f seq : Nat) (st : BitVec 32), u.eccSoft = [] → eccHit u (f + 48) 32 = none → eccHit u f 32 = none →
    (((performTimed { cycle := x, rank := 0, core := c, what := .record f st seq } u).core c).seq.branch =
      if st.getLsbD 8 then some ⟨if st.getLsbD 7 then 1 else 2, true, loadCap u (f + 48),
        if st.getLsbD 6 then some (unsealed (loadCap u (f + 64))) else none, seq⟩ else none) ∧
    let y := ((performTimed { cycle := x, rank := 0, core := c, what := .reload f } u).core c).x
    y.bpc = loadCap u f ∧ y.bstat.toNat = ofLe (u.bytes (f + 16) 4) &&& 0xFFFF03FF ∧ [y.bcause] = u.bytes (f + 20) 1 ∧
    y.binfo.toNat = ofLe (u.bytes (f + 24) 8) &&& 0xFFFFFFFF0000FF0F)

/-- SVC and BASECALL issue at a cost of 1, and in the next cycle SVC raises cause 0x0B with its code in XINFO and its own
address in XADDR, and BASECALL enters base level with cause 0x45; the return point is the next instruction (R322). The
entry commands take what is due at the boundary of a core: BASE_ENTRY the base cause; NATIVE_ENTRY a native event where
an instruction that decodes stands there, and ILLEGAL for a word that decodes to none, with the word in XINFO (R94,
R300, R305, R339). -/
def Obligations.CallsAndEntries : Prop :=
  (∀ (s : State) (c : CoreId) (cond : Cond) (code : BitVec 12), clear s c cond { banned := true } = true →
     (operandCore s c).seq.imprecise = none →
     let k := operandCore s c
     let t := issueCycle s c
     let s' := issued s c 1 id
     (k.seq.branch = none → (s'.core c).pc = k.pc + 4) ∧
     exec (.svc c cond code) s = .next (deliver c (t + 1)
       { code := 0x0B, xpc := (s'.core c).pc, xaddr := k.pc, xinfo := code.setWidth 64, fault := true, back := false } s') ∧
     exec (.basecall c cond code) s =
       .next (enterBase c (t + 1) 0x45 ((code.setWidth 64) <<< 32) (s'.core c).pc false k.pc s')) ∧
  (∀ (s : State) (c : CoreId) (word : BitVec 32) (n : EventId), canIssue (arrived s c) c = true →
     ((arrived s c).core c).seq.str = none → ((arrived s c).core c).seq.trap = none →
     let t := issueCycle s c
     let b := boundary s c
     let k := b.core c
     (∀ u, baseDue c t b = some u → exec (.baseEntry c) s = .next u ∧ exec (.nativeEntry c word) s = .next u) ∧
     (baseDue c t b = none → (operandCore s c).seq.imprecise = none →
       (deLegal word = true → accepts k.seq = true → nativeEventDue (atIssue s c) c t = some n →
         exec (.nativeEntry c word) s = .next (deliver c t
           { code := 0x20, xpc := k.resumePc, xaddr := 0, xinfo := BitVec.ofNat 64 n.val, fault := false, back := k.back }
           (acceptEvent c t n b))) ∧
       (deLegal word = false → (operandCore s c).seq.imm = none → (operandCore s c).seq.rpt = none →
         exec (.nativeEntry c word) s = .next (deliver c t
           { code := 0x01, xpc := (operandCore s c).pc, xaddr := (operandCore s c).pc, xinfo := word.setWidth 64,
             fault := true, back := false } b))))

/-! ## Core reset, the lock and witness pairs -/

/-- CRHOLD records the bits it changes and schedules the hold or release of each core behind its crossing; the hold, when it
is applied, resets the core, holds it and ends its pair (R402); the release starts it at base level with depth 1, 64
cycles later at the reset address (R328-R331). CFGLOCK freezes the configuration and brings DIVMODE into force (R109,
R248). -/
def Obligations.CoreHoldsAndReleases : Prop :=
  ∀ (s : State) (c : CoreId) (v : BitVec 64) (t : Nat),
    (∃ u, exec (.crhold v) s = .next u ∧
      (∀ j : CoreId, present s j = true → u.pw.crhold.getLsbD j.val = v.getLsbD j.val) ∧
      (∀ j : CoreId, present s j = true → s.pw.crhold.getLsbD j.val ≠ v.getLsbD j.val →
        ∃ d, s.now ≤ d ∧ (d, j, v.getLsbD j.val) ∈ u.pw.crholdDue) ∧ u.cores = s.cores ∧ u.mem = s.mem) ∧
    ((s.pw.crholdDue.find? fun x => x.2.1 = c) = some (t, c, true) → ∃ u,
      exec (.coreResetHoldApplied c) s = .next u ∧ (u.core c).seq.inReset = true ∧ (u.core c).regs = Regs.reset ∧
      (u.core c).x = ExcRegs.reset 0 ∧ (u.core c).dp = DataPort.reset ∧ runs u c = false ∧
      (u.pair (pairOf c)).formed = false) ∧
    ((s.pw.crholdDue.find? fun x => x.2.1 = c) = some (t, c, false) → ∃ u,
      exec (.coreResetRelease c) s = .next u ∧ (u.core c).seq.inReset = false ∧ (u.core c).regs = Regs.reset ∧
      (u.core c).x = ExcRegs.reset 1 ∧ (u.core c).seq.nextIssue = max s.now t + 64) ∧
    (s.cfg.lock = false → ∃ u, exec .cfglockLock s = .next u ∧ u.cfg.lock = true ∧ u.cfg.divact = s.cfg.divmode ∧
      u.cores = s.cores ∧ u.mem = s.mem)

/-- Witness pairs (R398-R403): a WPJOIN whose partner waits in its own forms the pair in that cycle; one that meets no
partner within its count ends with Z 0; WPLEAVE on a lone core does nothing, and in a pair it is an act; the checker
performs two equal acts, two cycles apart, once, with the result for both cores; two equal WPLEAVEs dissolve the pair,
and so do two acts that differ, which are counted. -/
def Obligations.WitnessPairs : Prop :=
  ∀ (s : State) (c : CoreId) (cond : Cond) (gb : Reg), (s.core c).atBase = true →
    let o := operands s c
    let t := issueCycle s c
    (clear s c cond { banned := true } = true → joinRefused o c = false →
      (operandCore s c).seq.joinUntil = none → ((operandCore s c).reg gb).val.toNat % 2 ^ 32 ≠ 0 →
      quiet o c t = true → quiet o (partner c) t = true → runs o (partner c) = true →
      (∃ u, (o.core (partner c)).seq.joinUntil = some u ∧ t < u) →
      exec (.wpjoin c cond gb) s = .next (formPair (pairOf c) t o) ∧
      ((formPair (pairOf c) t o).pair (pairOf c)).formed = true) ∧
    (∀ x, (s.core c).seq.joinUntil = some x →
      let s' := s.modSeq c fun q => { q with nextIssue := max q.nextIssue x }
      clear s' c 14 { banned := true } = true → exec (.wpjoinTimeout c) s = .next (issued s' c 1 fun u =>
        pushFlags c (issueCycle s' c + 1) fZ 0 (u.modSeq c fun q => { q with joinUntil := none }))) ∧
    (clear s c cond { banned := true } = true →
      (paired o c = false → exec (.wpleave c cond) s = .next (issued s c 1 id)) ∧
      (paired o c = true → exec (.wpleave c cond) s =
        .next (issued s c (if c.val % 2 = 0 then 3 else 1) (holdAct c t 0 .leave)))) ∧
    (∀ (n : PairId) (e d : HeldAct) (le ld : List HeldAct), (s.pair n).formed = true → (s.pair n).evenActs = e :: le →
      (s.pair n).oddActs = d :: ld → d.cycle = e.cycle + 2 →
      let v := settle (max s.now d.cycle) s
      let rest := v.modPair n fun p => { p with evenActs := p.evenActs.drop 1, oddActs := p.oddActs.drop 1 }
      let dests : List ResultTo := [{ core := evenCore n, cycle := e.cycle, reg := e.gd, seq := e.seq },
        { core := oddCore n, cycle := d.cycle, reg := d.gd, seq := d.seq }]
      (e.act = .leave → d.act = .leave → ∃ u, exec (.witnessActCompare n) s = .next u ∧ (u.pair n).formed = false) ∧
      (e.act ≠ .leave → e.act.items = d.act.items →
        exec (.witnessActCompare n) s = .next (performAct (oddCore n) (evenCore n) (some n) d.cycle d.seq dests e.act rest)) ∧
      (e.act.items ≠ d.act.items → ∃ u, exec (.witnessActCompare n) s = .next u ∧ (u.pair n).formed = false ∧
        u.jn.misCnt = satAdd v.jn.misCnt 1))

/-- DADD, DSUB and DMUL (R131, R132, R133, R137, R145): on two valid operands the low 31 digits of the exact result, a zero
result minus only where R131 makes it so and KZ keeps it; N and Z of the result, DV and DEC_OVERFLOW, where DCTL enables
it, for a result of more than 31 digits. An invalid operand writes DX 1 and DV 0 and nothing else, and raises DEC_DATA
where DCTL enables it (R130). -/
def Obligations.DecimalSumsAndProducts : Prop :=
  ∀ (s : State) (c : CoreId) (cond : Cond) (gd ga gb : Reg),
    clear s c cond { banned := true, rptOk := true, writes := [gd] } = true →
    let k := operandCore s c
    let t := issueCycle s c
    let kz := k.regs.dctl.getLsbD 8
    let gives (cost : Nat) (x : Int) (natural : Bool) (i : Instr) : Prop :=
      let m := x.natAbs % 10 ^ 31
      let ovf := decide (10 ^ 31 ≤ x.natAbs)
      ∃ w, decRead w = some { mag := m, minus := (if x = 0 then natural else decide (x < 0)) && (kz || decide (m ≠ 0)) } ∧
        exec i s = .next (issued s c (paCost k cost) fun u => causeIf (ovf && k.regs.dctl.getLsbD 5) c 0x13
          (writes c t [(cost, .reg gd (TWord.plain w)),
            (cost, .flags 0x33 (flag fN (decide (x < 0 ∧ m ≠ 0)) ||| flag fZ (m == 0) ||| flag fDV ovf))] u))
    let invalid (cost : Nat) (i : Instr) : Prop :=
      exec i s = .next (issued s c (paCost k cost) fun u => causeIf (k.regs.dctl.getLsbD 4) c 0x12
        (writes c t [(cost, .flags 0x30 0x10)] u))
    (∀ a b, decRead (k.reg ga).val = some a → decRead (k.reg gb).val = some b →
      gives 3 (a.val + b.val) (a.minus && b.minus) (.dadd c cond gd ga gb) ∧
      gives 3 (a.val - b.val) (a.minus && !b.minus) (.dsub c cond gd ga gb) ∧
      gives 18 (a.val * b.val) (a.minus != b.minus) (.dmul c cond gd ga gb)) ∧
    (decRead (k.reg ga).val = none ∨ decRead (k.reg gb).val = none →
      invalid 3 (.dadd c cond gd ga gb) ∧ invalid 3 (.dsub c cond gd ga gb) ∧ invalid 18 (.dmul c cond gd ga gb))

/-- DDIV (R138): for a divisor other than 0 the quotient rounded to an integer in the mode of DCTL and the exact remainder
that goes with it, each with the sign that R131 and R132 give it, N and Z of the quotient and DX and DV 0; for a divisor
of 0 a plus zero quotient, the dividend as remainder, DV 1 and DEC_DIVIDE where DCTL enables it; an invalid operand
writes DX 1 and DV 0 and nothing else, and raises DEC_DATA where DCTL enables it (R130). The cost is 140 cycles, and 3
more where STATUS.PA is set. The rounding modes of R136 on a magnitude num/den: the nearest integer, halves away from
zero in mode 0 and to even in mode 1; toward zero in mode 2 and away from it in mode 3; toward minus and plus infinity
in modes 4 and 5. -/
def Obligations.DecimalQuotients : Prop :=
  (∀ (s : State) (c : CoreId) (cond : Cond) (gd ga gb : Reg), gd.val % 2 = 0 → gd ≠ 0 →
     clear s c cond { banned := true, rptOk := true, writes := [gd, pairReg gd] } = true →
     let k := operandCore s c
     let t := issueCycle s c
     let kz := k.regs.dctl.getLsbD 8
     let rm := (k.regs.dctl.extractLsb' 0 3).toNat
     let pair (q r : Word) (f : BitVec 6) : List (Nat × WriteWhat) :=
       [(140, .reg gd (TWord.plain q)), (140, .reg (pairReg gd) (TWord.plain r)), (140, .flags 0x33 f)]
     (∀ a b, decRead (k.reg ga).val = some a → decRead (k.reg gb).val = some b → b.mag ≠ 0 →
       let neg := a.minus != b.minus
       let q := signedMag neg (roundMag rm neg a.mag b.mag)
       let r := a.val - q * b.val
       r.natAbs < b.mag ∧ q.natAbs < 10 ^ 31 ∧ ∃ (wq wr : Word),
         decRead wq = some { mag := q.natAbs, minus := neg && (kz || decide (q ≠ 0)) } ∧
         decRead wr = some { mag := r.natAbs, minus := (if r = 0 then a.minus else decide (r < 0)) && (kz || decide (r ≠ 0)) } ∧
         exec (.ddiv c cond gd ga gb) s = .next (issued s c (paCost k 140)
           (writes c t (pair wq wr (flag fN (decide (q < 0)) ||| flag fZ (decide (q = 0))))))) ∧
     (∀ a b, decRead (k.reg ga).val = some a → decRead (k.reg gb).val = some b → b.mag = 0 →
       exec (.ddiv c cond gd ga gb) s = .next (issued s c (paCost k 140) fun u => causeIf (k.regs.dctl.getLsbD 6) c 0x14
         (writes c t (pair (decImage 0 false) (decImage a.mag (a.minus && (kz || decide (a.mag ≠ 0)))) (fZ ||| fDV)) u))) ∧
     (decRead (k.reg ga).val = none ∨ decRead (k.reg gb).val = none →
       exec (.ddiv c cond gd ga gb) s = .next (issued s c (paCost k 140) fun u => causeIf (k.regs.dctl.getLsbD 4) c 0x12
         (writes c t [(140, .flags 0x30 0x10)] u)))) ∧
  (∀ (rm num den : Nat) (neg : Bool), 0 < den →
     let q := roundMag rm neg num den
     (q = num / den ∨ q = num / den + 1) ∧ (num % den = 0 → q = num / den) ∧
     (rm = 0 → 2 * num < (2 * q + 1) * den ∧ (2 * q : Int) * den - den ≤ 2 * num) ∧
     (rm = 1 → 2 * num ≤ (2 * q + 1) * den ∧ (2 * q : Int) * den - den ≤ 2 * num ∧
       (2 * num = (2 * q + 1) * den → q % 2 = 0) ∧ (2 * num + den = 2 * q * den → q % 2 = 0)) ∧
     (rm = 2 → q = num / den) ∧ (rm = 3 → num ≤ q * den) ∧
     (rm = 4 → if neg then num ≤ q * den else q = num / den) ∧ (rm = 5 → if neg then q = num / den else num ≤ q * den))

/-- DCMP, DTST, DCVB, DCVD and DSRR (R27, R130, R137, R139, R140): comparison by value into N, Z and C with V and DX 0; the
test of one operand; conversion to w bits with V and INT_OVERFLOW where it does not fit; conversion of a signed w-bit
value to decimal; the shift by a power of ten, exact to the left and rounded to the right. On an invalid operand DTST
writes DX 1 alone, and DCMP, DCVB and DSRR write DX 1 and DV 0 and nothing else and raise DEC_DATA where DCTL enables
it. -/
def Obligations.DecimalComparesAndConversions : Prop :=
  ∀ (s : State) (c : CoreId) (cond : Cond) (w : Wf) (gd ga gb : Reg) (sh : BitVec 6) (rmo : BitVec 3),
    let k := operandCore s c
    let t := issueCycle s c
    let n := widthOf w
    let kz := k.regs.dctl.getLsbD 8
    let gives (cost : Nat) (x : Int) (natural : Bool) (mask : BitVec 6) (i : Instr) : Prop :=
      let m := x.natAbs % 10 ^ 31
      let ovf := decide (10 ^ 31 ≤ x.natAbs)
      ∃ v, decRead v = some { mag := m, minus := (if x = 0 then natural else decide (x < 0)) && (kz || decide (m ≠ 0)) } ∧
        exec i s = .next (issued s c (paCost k cost) fun u => causeIf (ovf && k.regs.dctl.getLsbD 5) c 0x13
          (writes c t [(cost, .reg gd (TWord.plain v)),
            (cost, .flags mask (flag fN (decide (x < 0 ∧ m ≠ 0)) ||| flag fZ (m == 0) ||| flag fDV ovf))] u))
    let invalid (cost : Nat) (i : Instr) : Prop :=
      exec i s = .next (issued s c (paCost k cost) fun u => causeIf (k.regs.dctl.getLsbD 4) c 0x12
        (writes c t [(cost, .flags 0x30 0x10)] u))
    (clear s c cond { banned := true, rptOk := true } = true →
      (decRead (k.reg ga).val = none ∨ decRead (k.reg gb).val = none → invalid 2 (.dcmp c cond ga gb)) ∧
      (∀ a b, decRead (k.reg ga).val = some a → decRead (k.reg gb).val = some b →
        exec (.dcmp c cond ga gb) s = .next (issued s c (paCost k 2) (writes c t
          [(2, .flags 0x1F (nzcv (decide (a.val < b.val)) (decide (a.val = b.val)) (decide (b.val ≤ a.val)) false))]))) ∧
      (∀ a, decRead (k.reg ga).val = some a → exec (.dtst c cond ga) s = .next (issued s c 2 (writes c t
        [(2, .flags 0x13 (nzcv (decide (a.val < 0)) (decide (a.val = 0)) false false))]))) ∧
      (decRead (k.reg ga).val = none →
        exec (.dtst c cond ga) s = .next (issued s c 2 (writes c t [(2, .flags 0x10 0x10)])))) ∧
    (clear s c cond { banned := true, rptOk := true, writes := [gd] } = true →
      (decRead (k.reg ga).val = none → (w ≠ 3 → invalid 12 (.dcvb c cond w gd ga)) ∧
        (sh ≠ 32 → rmo ≠ 7 → invalid 4 (.dsrr c cond gd ga sh rmo))) ∧
      (∀ a, w ≠ 3 → decRead (k.reg ga).val = some a →
        let d := (a.val % 2 ^ n).toNat
        let v := decide (a.val < -2 ^ (n - 1) ∨ 2 ^ (n - 1) ≤ a.val)
        exec (.dcvb c cond w gd ga) s = .next (issued s c (paCost k 12) fun u => causeIf (v && stOE k.x.status) c 0x10
          (writes c t [(12, .reg gd (TWord.plain (signFill n d))),
            (12, .flags 0x1B (nzcv (d.testBit (n - 1)) (d == 0) false v))] u))) ∧
      (w ≠ 3 → gives 16 (toSigned n (k.reg ga).val.toNat) false 0x23 (.dcvd c cond w gd ga)) ∧
      (∀ a, sh ≠ 32 → rmo ≠ 7 → decRead (k.reg ga).val = some a →
        (0 ≤ sh.toInt → gives 4 (a.val * 10 ^ sh.toInt.toNat) a.minus 0x33 (.dsrr c cond gd ga sh rmo)) ∧
        (sh.toInt < 0 → gives 4 (signedMag a.minus (roundMag (if rmo = 0 then (k.regs.dctl.extractLsb' 0 3).toNat
          else rmo.toNat - 1) a.minus a.mag (10 ^ (-sh.toInt).toNat))) a.minus 0x33 (.dsrr c cond gd ga sh rmo))))

/-! ## Decimal instructions -/

/-- The decimal memory forms that pass their checks and meet no hold (R29, R30, R52, R130, R141-R144): DLD, DADDM, DSUBM and
PACK read a field of LDS or the LIS in one part in E1, or in two parts in E1 and the cycle after it, and of anything
else through the fabric, and write their result with its flags at the end of their count; DST and UNPK write theirs,
UNPK in cycles 2 and 3 after its issue; UNPK of an invalid value writes DX 1 and DV 0 and no memory. A packed decimal
word with a preferred sign reads back as the magnitude and sign it was formed from (R24, R25, R26). A zoned field that
UNPK writes is read by PACK as the digits it was written from, with the sign where it is kept (R32, R33). -/
def Obligations.DecimalMemoryForms : Prop :=
  ((∀ (s : State) (c : CoreId) (cond : Cond) (g gb : Reg) (lm1 : BitVec 4) (off8 : BitVec 8) (nm1 : BitVec 5) (off7 : BitVec 7),
     clear s c cond { banned := true } = true → nm1 ≠ 31 →
     let o := operands s c
     let k := operandCore s c
     let t := issueCycle s c
     k.seq.hold = none → vecMemQueued k.ms t = false → k.ms.storeBuf = [] → outstanding k.ms t + 2 ≤ 8 →
     let reads (kind : DecKind) (n : Nat) (a : Auth) (i : Instr) : Prop :=
       let d : DecLoad := { kind := kind, gd := g, a := (k.reg g).val, dctl := k.regs.dctl, slot := k.seq.slot, pa := stPA k.x.status, pc := k.pc }
       let total (cost : Nat) : Nat := match kind with | .dld => cost | _ => paCost k cost
       accessFault o c a n .load = none →
       (∀ r, regionOf c a.ea n = some r → r.outside = false →
         let cost := (if n ≤ 16 then 4 else 5) + kind.extra
         exec i s = .next (issued s c (total cost) fun u =>
           readLocalField c t (t + cost) a.ea n (some r) d (checkKeys c a n u))) ∧
       (∀ r, regionOf c a.ea n = some r → r.outside = true →
         let cost := fieldDone (some r) a.ea n t + kind.extra - t
         exec i s = .next (issued s c (total cost) fun u =>
           sendField c t cost a.ea n d (capKey a.cap.val) k.atBase (checkKeys c a n u)))
     let auth8 := authOf o c gb (BitVec.signExtend 52 off8)
     let auth7 := authOf o c gb (BitVec.signExtend 52 off7)
     let l := lm1.toNat + 1
     let n := nm1.toNat + 1
     reads .dld l auth8 (.dld c cond g gb lm1 off8) ∧ reads .dadd l auth8 (.daddm c cond g gb lm1 off8) ∧
     reads .dsub l auth8 (.dsubm c cond g gb lm1 off8) ∧ reads .pack n auth7 (.pack c cond g gb nm1 off7) ∧
     (accessFault o c auth8 l .store = none → exec (.dst c cond g gb lm1 off8) s = .next (issued s c 1 fun u =>
       doStore c t auth8 ((beBytes 16 (k.reg g).val.toNat).drop (16 - l)) none (checkKeys c auth8 l u))) ∧
     (accessFault o c auth7 n .store = none →
       let cost := if n ≤ 16 then 3 else 4
       (∀ a, decRead (k.reg g).val = some a →
         let r := decUnpack (k.regs.dctl.getLsbD 8) n a
         exec (.unpk c cond g gb nm1 off7) s = .next (issued s c (paCost k cost) fun u =>
           causeIf (decide (10 ^ n ≤ a.mag) && k.regs.dctl.getLsbD 5) c 0x13 (writes c t [(cost, .flags 0x30 (flag fDV (decide (10 ^ n ≤ a.mag))))]
             (storeField c t auth7 r.1 (checkKeys c auth7 n u))))) ∧
       (decRead (k.reg g).val = none → exec (.unpk c cond g gb nm1 off7) s = .next (issued s c (paCost k cost) fun u =>
         causeIf (k.regs.dctl.getLsbD 4) c 0x12 (writes c t [(cost, .flags 0x30 0x10)] u))))) ∧
   (∀ (u : State) (c : CoreId) (x at_ : Nat) (l : LocalLoad) (d : DecLoad) (fwd : List (Option Byte)) (rest : List (Nat × List (Option Byte))),
     l.parts = (at_, fwd) :: rest → l.dest = .dec d → eccHit u at_ fwd.length = none → u.eccSoft = [] →
     let got := l.got ++ mergeBytes fwd (u.bytes at_ fwd.length)
     let v := performTimed { cycle := x, rank := 0, core := c, what := .load l } u
     (rest ≠ [] → v = schedule c (x + 1) 0 (.load { l with parts := rest, got := got }) u) ∧
     (rest = [] → v = decLoadCause c d (d.out got) (writeDec c l.due d.gd (d.out got) u)))) ∧
  (∀ (m : Nat) (minus : Bool), m < 10 ^ 31 → decRead (decImage m minus) = some { mag := m, minus := minus }) ∧
  (∀ (kz : Bool) (n : Nat) (a : Dec), 0 < n → n ≤ 31 →
     zonedRead (decUnpack kz n a).1 =
       some { mag := a.mag % 10 ^ n, minus := a.minus && (kz || decide (a.mag % 10 ^ n ≠ 0)) })

/-! ## String instructions -/

/-- The string instructions that meet no hold and no cause begin their work while the store buffer drains (R151-R168,
R181-R188): what they do up to their next interruption point comes about in the last cycle before it, in which they are
complete, or have their final values with the rest of their count to come, or stop at the point with the work that
remains in their registers (R166, R171-R173; the cycle of the reads and writes within a span is the model's choice, log
entry 53). A string instruction offered again at an interruption point (R171-R174): a base cause or an event that is due
there is taken; else its work goes on, without the fixed term of its count, or one that has its final values passes the
point. FLDW (R184, R187-R189): in the last cycle of its first span it reads the bitmaps and writes entries 0 and 1, and
ends where the bitmaps stop it or no field is left; in the last cycle of each further span it reads one descriptor, and
writes the field's entry, or ends with the STOP that the field gives; the point after a field leaves STOP 0 (the model's
choice, log entry 97). -/
def Obligations.StringInstructionsComplete : Prop :=
  ((∀ (s : State) (c : CoreId) (cond : Cond) (mode : BitVec 2) (gd ga gb : Reg),
     clear s c cond { banned := true } = true → gd ≠ gb → ga ≠ gb →
     let o := operands s c
     let k := operandCore s c
     let t := issueCycle s c
     let begins (q : Option Trap) (op : StrOp) (extra : Nat) (i : Instr) : Prop :=
       q = none → exec i s = .next (strGo c t true (strJob k op gd ga gb extra) (drainAll c t o))
     let n := countOf (k.reg gb)
     let dst := authAt o c gd 0
     let src := authAt o c ga 0
     let extra : Nat := if stPA k.x.status then 3 else 0
     vecMemQueued k.ms t = false →
     begins (moveFault o c gd ga gb false) .mvb 0 (.mvb c cond gd ga gb) ∧
     (n = 0 ∨ inGlobal src.ea 1 = false → begins (moveFault o c gd ga gb true)
       (if n ≠ 0 ∧ inGlobal dst.ea 1 then .mvblOut (capKey dst.cap.val) dst.reg else .mvb) 0 (.mvbl c cond gd ga gb)) ∧
     begins (firstTrap [strFault o c dst n true false false, strFault o c src n true false false]) .clcb 0 (.clcb c cond gd ga gb) ∧
     (gd ≠ ga →
     begins (strFault o c dst n true false false) .scb 0 (.scb c cond gd ga gb) ∧
     begins (firstTrap [strFault o c dst n true true false, strFault o c src 256 true false false]) .trb 0 (.trb c cond gd ga gb) ∧
     begins (firstTrap [strFault o c dst n true false false, strFault o c src 256 true false false]) .trt 0 (.trt c cond gd ga gb) ∧
     (mode ≠ 3 → (mode = 0 ↔ gd = 0) → begins (firstTrap [strFault o c src n true false false,
         if mode = 0 then none else strFault o c dst (if mode = 1 then n else 2 * n) false true false])
       (.u8v mode) 0 (.u8v c cond mode gd ga gb)) ∧
     begins (strFault o c dst n true true false) (.edit false) extra (.edb c cond gd ga gb) ∧
     begins (strFault o c dst n true true false) (.edit true) extra (.edm c cond gd ga gb) ∧
     (∀ b : Bounds, gd.val % 2 = 0 → gd ≠ 0 → ga ≠ pairReg gd → gb ≠ pairReg gd → (s.core c).legacy = false →
       capBounds dst.cap.val = some b →
       let w := (k.reg (pairReg gd)).val.toNat
       let len := min (b.top - dst.ea) 65535
       begins (fldwFault o c dst src (authAt o c gb 0) len) (.fldw len (field w 24 2) (field w 16 8) (field w 0 16) none) 0
         (.fldw c cond gd ga gb)))) ∧
   (∀ (u : State) (c : CoreId) (x : Nat) (lead : Bool) (j : StrJob), (∀ a b, j.op ≠ .mvblOut a b) → (∀ l e f p b, j.op ≠ .fldw l e f p b) →
     let r := j.run u c
     let cost := (if lead then r.fixed else 0) + r.cycles (r.upto j.ahead - j.ahead)
     let v := strGo c x lead j u
     { cycle := x + cost - 1, rank := 1, core := c, what := .string j } ∈ v.timed ∧ (v.core c).seq.nextIssue = x + cost ∧
     v.mem = u.mem ∧ (v.core c).regs = (u.core c).regs ∧
     (u.eccBad = [] → u.eccSoft = [] →
       let w := performTimed { cycle := x, rank := 1, core := c, what := .string j } u
       (r.n ≤ j.ahead + 64 → w = strDone c x (1 + j.extra) (r.effect r.n true (x + 1) u)) ∧
       (j.ahead + 64 < r.n → r.final (j.ahead + 64) = true → w = (strDone c x 1 (r.effect (j.ahead + 64) true (x + 1) u)).modSeq c fun q =>
         { q with str := some (.spent (latePoints r (x + 1) (r.n - (j.ahead + 64)))) }) ∧
       (j.ahead + 64 < r.n → r.final (j.ahead + 64) = false →
         w = strPoint c (x + 1) { r.next (j.ahead + 64) with ahead := j.ahead + 64 - r.moved (j.ahead + 64) }
           (r.effect (j.ahead + 64) false (x + 1) u))))) ∧
  (∀ (s : State) (c : CoreId) (cond : Cond) (mode : BitVec 2) (gd ga gb : Reg), canIssue (arrived s c) c = true →
     let t := issueCycle s c
     let o := (atBoundary c t (arrived s c)).modCore c (settleCore false t)
     let taken := pointTaken c t (leavePoint c t o)
     let q := ((arrived s c).core c).seq
     ∀ i ∈ ([.mvb c cond gd ga gb, .mvbl c cond gd ga gb, .clcb c cond gd ga gb, .scb c cond gd ga gb, .trb c cond gd ga gb,
         .trt c cond gd ga gb, .u8v c cond mode gd ga gb, .edb c cond gd ga gb, .edm c cond gd ga gb, .fldw c cond gd ga gb] : List Instr),
       (∀ k u, q.str = some k → taken = some u → exec i s = .next u) ∧
       (∀ j, q.str = some (.work j) → taken = none → exec i s = .next (strGo c t false j o)) ∧
       (∀ y rest, q.str = some (.spent (y :: rest)) → taken = none → exec i s = .next (o.modSeq c fun q =>
         { q with nextIssue := y, str := if rest.isEmpty then none else some (.spent rest) })) ∧
       (q.str = some .block → taken = none → exec i s = .next (o.modSeq c fun q => { q with str := none }))) ∧
  (∀ (u : State) (c : CoreId) (x len enc fld pos bm : Nat) (j : StrJob), u.eccBad = [] → u.eccSoft = [] →
     let m := strAt c (ptrAt j.dv)
     let tab := strAt c (ptrAt j.bv)
     let act (b : Option Nat) : State := performTimed
       { cycle := x, rank := 1, core := c, what := .string { j with op := .fldw len enc fld pos b } } u
     (∀ e, readBitmaps u m len enc = .error e → act none = fldwEnd c x j.gd e enc 0 pos u) ∧
     (∀ b, readBitmaps u m len enc = .ok b →
       let second := b.testBit 127
       let v := putBitmaps tab (if enc = 0 then 8 else 16) second u
       let p := if fld = 0 then (if second then 2 else 1) * (if enc = 0 then 8 else 16) else pos
       let f := if fld = 0 then 2 else fld
       (fldwTodo b f = [] → act none = fldwEnd c x j.gd 0 enc 129 p v) ∧
       (fldwTodo b f ≠ [] → act none = strGo c (x + 1) false { j with op := .fldw len enc f p (some b) } v)) ∧
     (∀ i rest, fldwTodo bm fld = i :: rest →
       let d := ofLe (u.bytes (strAt c (ptrAt j.av) + 4 * i) 4)
       (∀ e, readField u m len d pos = .error e → act (some bm) = fldwEnd c x j.gd e enc i pos u) ∧
       (∀ nb q, readField u m len d pos = .ok (nb, q) →
         let v := strPut (tab + 4 * i) (leBytes 4 (nb * 65536 + q)) u
         (rest = [] → act (some bm) = fldwEnd c x j.gd 0 enc 129 (q + nb) v) ∧
         (rest ≠ [] → act (some bm) = strPoint c (x + 1) { j with op := .fldw len enc (i + 1) (q + nb) (some bm) }
           (pushReg c (x + 1) (pairReg j.gd) (fldwWord 0 enc (i + 1) (q + nb)) v)))))

/-- MVB copies its bytes and no others, and after it the count is 0 and both pointers are past the range (R156, R157): for
ranges that do not overlap each destination byte is its source byte. U8V's rule of a well-formed sequence (R163): what
it takes as a code point of two or more bytes is the UTF-8 encoding of that code point, which is no surrogate and at
most 0x10FFFF, in the shortest form. MVBL from the global scratchpad sends its first block reads from the sixth cycle on
and holds its core until they return; a block of it is checked in the cycle in which it is read, and so is a block that
MVBL writes to the global scratchpad, with the registers moved 4 cycles later, at the end or at the point after the
block (R167, R174, R175). -/
def Obligations.CopiesAndSequences : Prop :=
  (∀ (s : State) (c : CoreId) (gd ga gb : Reg) (due x y : Nat),
     let k := s.core c
     let n := countOf (k.reg gb)
     let j := strJob k .mvb gd ga gb 0
     let r := mvbRun s c j
     let u := r.effect n true due s
     Memory.wf s.mem = true → strAt c (ptrAt (k.reg gd)) = x → strAt c (ptrAt (k.reg ga)) = y →
     x + n ≤ attBase → (x + n ≤ y ∨ y + n ≤ x) → copyDist (ptrAt (k.reg gd)) (ptrAt (k.reg ga)) n = 0 →
     (∀ i, i < n → memGet u.mem (x + i) = memGet s.mem (y + i)) ∧
     (∀ a, a < x ∨ x + n ≤ a → memGet u.mem a = memGet s.mem a) ∧ (u.core c).regs = k.regs ∧
     (r.next n).bv = TWord.plain 0 ∧ (r.next n).dv = advancePtr k.legacy (k.reg gd) n ∧
     (r.next n).av = advancePtr k.legacy (k.reg ga) n ∧
     (∀ w, w ∈ (u.core c).seq.inflight ↔ w ∈ k.seq.inflight ∨ (w.due = due ∧
       k.seq.wseq ≤ w.seq ∧ w.seq < k.seq.wseq + 3 ∧
       w.what = if w.seq = k.seq.wseq then .reg gd (r.next n).dv else if w.seq = k.seq.wseq + 1 then .reg ga (r.next n).av
         else .reg gb (r.next n).bv))) ∧
  (∀ (bs : List Byte) (cp len : Nat), u8Next bs = .point cp len →
     cp ≤ 0x10FFFF ∧ ¬(0xD800 ≤ cp ∧ cp ≤ 0xDFFF) ∧ len ≤ bs.length ∧
     (len = if cp < 0x80 then 1 else if cp < 0x800 then 2 else if cp < 0x10000 then 3 else 4)) ∧
  ((∀ (s : State) (c : CoreId) (cond : Cond) (gd ga gb : Reg),
     clear s c cond { banned := true } = true → gd ≠ gb → ga ≠ gb →
     let o := operands s c
     let k := operandCore s c
     let t := issueCycle s c
     let n := countOf (k.reg gb)
     let dst := authAt o c gd 0
     let src := authAt o c ga 0
     vecMemQueued k.ms t = false → moveFault o c gd ga gb true = none → n ≠ 0 → inGlobal src.ea 1 = true →
     ∃ u j, exec (.mvbl c cond gd ga gb) s = .next u ∧ (u.core c).ms.mvbl = some j ∧ j.gd = gd ∧ j.ga = ga ∧ j.gb = gb ∧ j.len = n ∧
       j.src = src.ea ∧ j.dst = dst.ea ∧ j.done = 0 ∧ j.wrote = 0 ∧ canIssue u c = false ∧ u.mem = o.mem ∧
       ∀ i, i < 8 → i < blocksOf src.ea n → { cycle := t + 6 + 4 * i, rank := 0, core := c, what := .mvblRead i } ∈ u.timed) ∧
   (∀ (u : State) (c : CoreId) (x i : Nat) (j : Mvbl), (u.core c).ms.mvbl = some j → j.refused = none → i < blocksOf j.src j.len →
     u.keySoft = [] →
     let lo := (blockSpan j.src j.len i).1
     let n := (blockSpan j.src j.len i).2 - lo
     let v := performTimed { cycle := x, rank := 0, core := c, what := .mvblRead i } u
     (blockCheck c j.skey false (j.src + lo) n j.sreg u = none → v = sendBlockRead c x (j.src + lo) j.skey j.base false u) ∧
     (∀ q, blockCheck c j.skey false (j.src + lo) n j.sreg u = some q → (i = 0 → v = mvblRefuse c (x + 1) j q u) ∧
       (i ≠ 0 → v = u.modMs c fun m => { m with mvbl := some { j with refused := some (i, q.code == codeMachine, q.xaddr) } }))) ∧
   (∀ (u : State) (c : CoreId) (x reg : Nat) (key : BitVec 4) (j : StrJob), u.eccBad = [] → u.eccSoft = [] → u.keySoft = [] →
     let d := ptrAt j.dv
     let n := countOf j.bv
     let hi := blockBytes d n 1
     let v := performTimed { cycle := x, rank := 0, core := c, what := .string { j with op := .mvblOut key reg } } u
     let j' := ({ j with op := .mvblOut key reg } : StrJob).moved hi hi (BitVec.ofNat 128 (n - hi))
     let sent := strRegs c (x + 4) true true j' (sendBlock c (u.core c).pc (u.core c).seq.wseq x (d / 64 * 64)
       (blockImage 0 d (u.bytes (strAt c (ptrAt j.av)) hi)) key j.base u)
     (∀ q, blockCheck c key true d hi reg u = some q → v = trapAt c (x + 1) q u) ∧
     (blockCheck c key true d hi reg u = none → (n ≤ hi → v = strDone c x 4 sent) ∧ (hi < n → v = strPoint c (x + 4) j' sent))))

/-! ## Vector instructions -/

/-- Every queued vector instruction that finds room in the queue enters it with what it read at dispatch: its beats and
latency, VLE, DCTL, FPCTL and its general operand (R77, R78, R192, R195, R203). VLD, VLDD, VST and VSTD that pass the
checks of R216 enter the queue with their address and key once the store buffer is empty (R80, R216, R218). -/
def Obligations.VectorInstructionsEnterTheQueue : Prop :=
  (∀ (s : State) (c : CoreId) (cond : Cond) (e : VElt) (vd va vb gd ga : Reg) (kd ka kb km : KReg) (sh : BitVec 5) (q : BitVec 2)
     (i : Instr), clear s c cond {} = true →
     let o := operands s c
     let k := operandCore s c
     let t := issueCycle s c
     let beats := cdiv (vleOf o k) 512
     let plain (more lat : Nat) : VDispatch := { op := TWord.null, beats := beats + more, lat := lat, mem := none }
     let enters (d : VDispatch) : Prop := exec i s = .next (issued s c 1 (enqueueVec c t i d))
     vecOccupied k.ms t < 4 →
     (i ∈ [.vadd c cond e vd va vb km, .vsub c cond e vd va vb km, .vmul c cond e vd va vb km, .vand c cond e vd va vb km,
         .vor c cond e vd va vb km, .vxor c cond e vd va vb km, .vsll c cond e vd va vb km, .vsrl c cond e vd va vb km,
         .vsra c cond e vd va vb km, .vmin c cond e vd va vb km, .vmax c cond e vd va vb km, .vminu c cond e vd va vb km,
         .vmaxu c cond e vd va vb km, .vcmpeq c cond e kd va vb km, .vcmplt c cond e kd va vb km,
         .vcmpltu c cond e kd va vb km, .vtrb c cond vd va vb km] → enters (plain 0 2)) ∧
     (i ∈ [.vfadd c cond vd va vb km, .vfsub c cond vd va vb km, .vfmul c cond vd va vb km, .vffma c cond vd va vb km,
         .vfmin c cond vd va vb km, .vfmax c cond vd va vb km, .vfcmpeq c cond kd va vb km, .vfcmplt c cond kd va vb km,
         .vfcmple c cond kd va vb km, .vfcvtsw c cond vd va km, .vfcvtws c cond vd va km] → enters (plain 0 4)) ∧
     (km ≠ 0 → i ∈ [.vdadd c cond vd va vb km, .vdsub c cond vd va vb km, .vdtst c cond va km, .vdsrr c cond vd va sh km] →
       enters (plain 0 4)) ∧
     (km ≠ 0 → i = .vdsum c cond vd va km → enters (plain 2 4)) ∧
     (kd ≠ km → i ∈ [.vdcmpeq c cond kd va vb km, .vdcmplt c cond kd va vb km] → enters (plain 0 4)) ∧
     (i = .vsplat c cond e vd ga km → enters { plain 0 2 with op := k.reg ga }) ∧
     (i ∈ [.vmovg c cond gd va, .kand c cond kd ka kb, .kor c cond kd ka kb, .kxor c cond kd ka kb, .kandn c cond kd ka kb,
         .knot c cond kd ka, .kmovg c cond gd ka q] → enters { op := TWord.null, beats := 1, lat := 2, mem := none }) ∧
     (i ∈ [.vmovw c cond vd ga, .kmovk c cond kd ga q] → enters { op := k.reg ga, beats := 1, lat := 2, mem := none })) ∧
  (∀ (s : State) (c : CoreId) (cond : Cond) (e : VElt) (v gb : Reg) (km : KReg), clear s c cond {} = true →
     let o := operands s c
     let k := operandCore s c
     let t := issueCycle s c
     let a := authAt o c gb 0
     let n := vleOf o k / 8
     vecOccupied k.ms t < 4 → presentEntries k.ms t = [] →
     ∀ (store : Bool) (i : Instr), vecFault o c a n store = none →
       i ∈ (if store then [.vst c cond e v gb km, .vstd c cond v gb km] else [.vld c cond e v gb km, .vldd c cond v gb km]) →
       exec i s = .next (issued s c 1 (enqueueVec c t i
         { op := TWord.null, beats := (vecMemTiming a.ea n store).1, lat := (vecMemTiming a.ea n store).2, mem := some a })))

/-- The beats of an entry at the front of the queue, once no load is in progress and what comes before its first beat has
come about (R78, R204, R217, R218): the entry leaves the queue; its effect is done on the vector registers, and what it
gives outside waits for its completion. Beat k of a load or store in LDS moves bytes 64k to 64k + 63 of the range in
cycle first + k, a load to the processed lanes that it holds, a store from them; block k of one in the global scratchpad
comes to its key rule in cycle first + 4k, or, of a load, in first + 104(k / 8) + 4(k mod 8). The completion of an entry
publishes its general register one cycle after L + X and its floating-point flags from L + 5 on (R203, R205). -/
def Obligations.VectorEntriesRun : Prop :=
  (∀ (s : State) (c : CoreId) (e : VEntry) (rest : List VEntry),
     (s.core c).ms.vq = e :: rest → (s.core c).ms.vloads = [] →
     let v := (settle e.first s).modMs c fun ms => { ms with vq := rest }
     let done (o : VOut) (u : State) : State := u.modCore c fun k => { k with
       regs := o.regs,
       ms := { k.ms with vdone := k.ms.vdone ++ [VDone.mk e.last e.lat e.isMem o.g o.fp e.seq] } }
     let n := e.vle / 8
     let a := e.addr.toNat
     (e.mem = none → exec (.vectorEntryBeats c) s = .next (done (vecEffect e (v.core c).regs) v) ∧
       (vecEffect e (v.core c).regs).regs.g = (v.core c).regs.g) ∧
     (∀ m, e.mem = some m → e.global = false → exec (.vectorEntryBeats c) s = .next (done (vOut (v.core c).regs)
       ((List.range (cdiv n 64)).foldl (fun u k => schedule c (e.first + k) (if m.store then 1 else 0) (.beat e k) u) v))) ∧
     (∀ m, e.mem = some m → e.global = true → m.store = true → exec (.vectorEntryBeats c) s = .next (done (vOut (v.core c).regs)
       ((List.range (blocksOf a n)).foldl (fun u k => schedule c (e.first + 4 * k) 0 (.vblock e k) u) v))) ∧
     (∀ m, e.mem = some m → e.global = true → m.store = false → exec (.vectorEntryBeats c) s = .next
       (((List.range (blocksOf a n)).foldl
         (fun u k => schedule c (e.first + 104 * (k / 8) + 4 * (k % 8)) 0 (.vblock e k) u) v).modMs c
           fun ms => { ms with vloads := [{ entry := e, got := [] }] })) ∧
     (∀ (m : VMem) (k x : Nat) (u : State), e.mem = some m →
       let r := (u.core c).regs
       let lo := 64 * k
       let len := min 64 (n - lo)
       (m.store = true → performTimed { cycle := x, rank := 1, core := c, what := .beat e k } u =
         putImage (ldsBase c + a + lo) (((m.image r n).drop lo).take len) u) ∧
       (m.store = false → u.eccBad = [] → u.eccSoft = [] →
         performTimed { cycle := x, rank := 0, core := c, what := .beat e k } u =
           u.modRegs c fun r => m.fill r n [(lo, u.bytes (ldsBase c + a + lo) len)]))) ∧
  (∀ (s : State) (c : CoreId) (d : VDone) (rest : List VDone), (s.core c).ms.vdone = d :: rest →
     let v := (settle (d.last + d.lat) s).modMs c fun ms => { ms with vdone := ms.vdone.drop 1 }
     ∃ u, exec (.vectorEntryComplete c) s = .next u ∧ (u.core c).ms.vdone = (v.core c).ms.vdone ∧ (u.core c).regs = (v.core c).regs ∧
     (∀ x, x ∈ (v.core c).seq.inflight → x ∈ (u.core c).seq.inflight) ∧
     (∀ r y, d.gWrite = some (r, y) →
       { due := d.last + d.lat + 1, seq := d.seq, what := .reg r (TWord.plain y) } ∈ (u.core c).seq.inflight) ∧
     (d.fpOr ≠ 0 → { due := d.last + 5, seq := d.seq, what := .fpOr d.fpOr } ∈ (u.core c).seq.inflight) ∧
     (d.gWrite = none → d.fpOr = 0 → u = v))

/-- Lane by lane (R197, R198, R200, R207, R208, R214, R215): a processed lane, active under VLE and set in the mask, takes
its result, every other lane and every other register keeps its value; a compare writes the bits of the active lanes
under the mask. Binary32 lanes, decimal lanes and the other lane operations (R199, R208-R215): a processed lane takes
its result and every other lane stays; the classes of the processed lanes are gathered for FPFLAGS; a decimal lane with
an invalid operand stays, and it and an overflow clear its mask bit; VDSUM writes the sum of the valid processed lanes
into lane 0; VTRB looks each byte up in vb; VSPLAT and VMOVW write a general register to lanes, VMOVG gives lane 0. -/
def Obligations.VectorLanes : Prop :=
  (∀ (e : VEntry) (r : Regs) (c : CoreId) (cond : Cond) (z : VElt) (d a b : Reg) (kd km : KReg) (i : Nat),
     let w := eltBits z
     let n := e.vle / w
     let x := lane w r.w[a] i
     let y := lane w r.w[b] i
     let old := lane w r.w[d] i
     let on := decide (i < n) && (kreg r km).getLsbD i
     let sg (v : Nat) : Int := toSigned w v
     e.vle ≤ 4096 → w * i + w ≤ 4096 →
     (∀ p ∈ ([(.vadd c cond z d a b km, (x + y) % 2 ^ w), (.vsub c cond z d a b km, (x + 2 ^ w - y) % 2 ^ w),
         (.vmul c cond z d a b km, x * y % 2 ^ w), (.vand c cond z d a b km, x &&& y), (.vor c cond z d a b km, x ||| y),
         (.vxor c cond z d a b km, x ^^^ y), (.vmin c cond z d a b km, if sg x < sg y then x else y),
         (.vmax c cond z d a b km, if sg x < sg y then y else x), (.vminu c cond z d a b km, min x y),
         (.vmaxu c cond z d a b km, max x y), (.vsll c cond z d a b km, x * 2 ^ (y % 256) % 2 ^ w),
         (.vsrl c cond z d a b km, x / 2 ^ (y % 256)),
         (.vsra c cond z d a b km, (sg x / 2 ^ (y % 256) % 2 ^ w).toNat)] : List (Instr × Nat)),
       e.instr = p.1 → lane w (vecEffect e r).regs.w[d] i = (if on then p.2 else old) ∧
         (∀ j : Reg, j ≠ d → (vecEffect e r).regs.w[j] = r.w[j]) ∧ (vecEffect e r).regs.k = r.k ∧
         (vecEffect e r).regs.g = r.g) ∧
     (∀ p ∈ ([(.vcmpeq c cond z kd a b km, x == y), (.vcmplt c cond z kd a b km, decide (sg x < sg y)),
         (.vcmpltu c cond z kd a b km, decide (x < y))] : List (Instr × Bool)),
       e.instr = p.1 → (kd ≠ 0 → (kreg (vecEffect e r).regs kd).getLsbD i =
           (if i < n then (kreg r km).getLsbD i && p.2 else (kreg r kd).getLsbD i)) ∧ (kd = 0 → (vecEffect e r).regs = r) ∧
         (vecEffect e r).regs.w = r.w ∧ (∀ j : KReg, j ≠ kd → kreg (vecEffect e r).regs j = kreg r j))) ∧
  (∀ (e : VEntry) (r : Regs) (c : CoreId) (cond : Cond) (z : VElt) (d a b ga : Reg) (kd km : KReg) (sh : BitVec 5) (i : Nat),
     e.vle ≤ 4096 →
     let n (w : Nat) : Nat := e.vle / w
     let on (w i : Nat) : Bool := decide (i < n w) && (kreg r km).getLsbD i
     let got (w : Nat) : Nat := lane w (vecEffect e r).regs.w[d] i
     let fits (w : Nat) : Prop := w * i + w ≤ 4096
     let l32 (x : Reg) (i : Nat) : BitVec 32 := BitVec.ofNat 32 (lane 32 r.w[x] i)
     let rd (x : Reg) (i : Nat) : Fp := fpRead (fpDAZ e.fpctl) (l32 x i)
     let classes (f : Nat → BitVec 5) : BitVec 5 := ((List.range (n 32)).filter (on 32)).foldl (fun x j => x ||| f j) 0
     let fp (f : Nat → FpOut) (ins : Instr) : Prop := e.instr = ins → fits 32 →
       got 32 = (if on 32 i then (f i).v.toNat else lane 32 r.w[d] i) ∧
       (vecEffect e r).fp = classes (fun j => (f j).classes) ∧ (vecEffect e r).regs.k = r.k ∧
       ∀ j : Reg, j ≠ d → (vecEffect e r).regs.w[j] = r.w[j]
     let cmp (f : Ordering → Bool) (ins : Instr) : Prop := e.instr = ins →
       (kd ≠ 0 → (kreg (vecEffect e r).regs kd).getLsbD i =
         (if i < n 32 then (kreg r km).getLsbD i && ((fpRel (rd a i) (rd b i)).any f) else (kreg r kd).getLsbD i)) ∧
       (kd = 0 → (vecEffect e r).regs = r) ∧
       (vecEffect e r).fp = classes (fun j => fpSnans (rd a j) (rd b j)) ∧ (vecEffect e r).regs.w = r.w
     let dec (x : Reg) : Option Dec := decLane r.w[x] i
     let kz := dcKZ e.dctl
     let decs (f : Option DecOut) (ins : Instr) : Prop := e.instr = ins → km ≠ 0 → fits 128 →
       (∀ o w, f = some o → o.r0 = some w → got 128 = (if on 128 i then w.toNat else lane 128 r.w[d] i) ∧
         (kreg (vecEffect e r).regs km).getLsbD i = ((kreg r km).getLsbD i && !(decide (i < n 128) && o.vals.getLsbD 5))) ∧
       (f = none → got 128 = lane 128 r.w[d] i ∧
         (kreg (vecEffect e r).regs km).getLsbD i = ((kreg r km).getLsbD i && !decide (i < n 128))) ∧
       (vecEffect e r).fp = 0 ∧ ∀ j : Reg, j ≠ d → (vecEffect e r).regs.w[j] = r.w[j]
     let pair (f : Dec → Dec → DecOut) : Option DecOut := (dec a).bind fun x => (dec b).map fun y => f x y
     let decCmp (f : Int → Int → Bool) (ins : Instr) : Prop := e.instr = ins → kd ≠ km →
       (kd ≠ 0 → (kreg (vecEffect e r).regs kd).getLsbD i = (if i < n 128 then (kreg r km).getLsbD i &&
         (match dec a, dec b with | some x, some y => f x.val y.val | _, _ => false) else (kreg r kd).getLsbD i)) ∧
       (km ≠ 0 → (kreg (vecEffect e r).regs km).getLsbD i =
         ((kreg r km).getLsbD i && !(decide (i < n 128) && ((dec a).isNone || (dec b).isNone)))) ∧ (vecEffect e r).regs.w = r.w
     fp (fun j => fpAdd e.fpctl (rd a j) (rd b j)) (.vfadd c cond d a b km) ∧
     fp (fun j => fpAdd e.fpctl (rd a j) (rd b j).flip) (.vfsub c cond d a b km) ∧
     fp (fun j => fpMul e.fpctl (rd a j) (rd b j)) (.vfmul c cond d a b km) ∧
     fp (fun j => fpFma e.fpctl (rd a j) (rd b j) (rd d j)) (.vffma c cond d a b km) ∧
     fp (fun j => fpMinMax e.fpctl false (l32 a j) (l32 b j)) (.vfmin c cond d a b km) ∧
     fp (fun j => fpMinMax e.fpctl true (l32 a j) (l32 b j)) (.vfmax c cond d a b km) ∧
     fp (fun j => fpFromInt e.fpctl (l32 a j).toInt 0) (.vfcvtsw c cond d a km) ∧
     fp (fun j => fpToInt e.fpctl 0 (rd a j)) (.vfcvtws c cond d a km) ∧
     cmp (fun o => o == .eq) (.vfcmpeq c cond kd a b km) ∧ cmp (fun o => o == .lt) (.vfcmplt c cond kd a b km) ∧
     cmp (fun o => o != .gt) (.vfcmple c cond kd a b km) ∧
     decs (pair (decAdd kz)) (.vdadd c cond d a b km) ∧ decs (pair fun x y => decAdd kz x y.neg) (.vdsub c cond d a b km) ∧
     decs ((dec a).map (decShift kz (dcRM e.dctl) sh.toInt)) (.vdsrr c cond d a sh km) ∧
     decCmp (fun x y => decide (x = y)) (.vdcmpeq c cond kd a b km) ∧ decCmp (fun x y => decide (x < y)) (.vdcmplt c cond kd a b km) ∧
     (e.instr = .vdtst c cond a km → km ≠ 0 → (vecEffect e r).regs.w = r.w ∧ (kreg (vecEffect e r).regs km).getLsbD i =
       ((kreg r km).getLsbD i && !(decide (i < n 128) && (dec a).isNone))) ∧
     (e.instr = .vdsum c cond d a km → km ≠ 0 →
       let ds := ((List.range (n 128)).filter (on 128)).filterMap fun j => decLane r.w[a] j
       let sum : Int := (ds.map Dec.val).foldl (· + ·) 0
       lane 128 (vecEffect e r).regs.w[d] 0 = (decWord kz sum (!ds.isEmpty && ds.all Dec.minus)).toNat ∧
       (0 < i → fits 128 → got 128 = lane 128 r.w[d] i) ∧ (kreg (vecEffect e r).regs km).getLsbD i = ((kreg r km).getLsbD i &&
         !(decide (i < n 128) && (decide (10 ^ 31 ≤ sum.natAbs) || (dec a).isNone)))) ∧
     (e.instr = .vtrb c cond d a b km → fits 8 →
       got 8 = (if on 8 i then lane 8 r.w[b] (lane 8 r.w[a] i) else lane 8 r.w[d] i)) ∧
     (e.instr = .vsplat c cond z d ga km → fits (eltBits z) →
       got (eltBits z) = (if on (eltBits z) i then e.op.val.toNat % 2 ^ eltBits z else lane (eltBits z) r.w[d] i)) ∧
     (e.instr = .vmovw c cond d ga → fits 128 → got 128 = (if i = 0 then e.op.val.toNat else lane 128 r.w[d] i)) ∧
     (e.instr = .vmovg c cond d a →
       (vecEffect e r).g = some (d, BitVec.ofNat 128 (lane 128 r.w[a] 0)) ∧ (vecEffect e r).regs = r))

/-- The mask operations work on all 512 bits, whatever VLE, element width or mode (R200): KAND, KOR, KXOR, KANDN and KNOT
form kd bit by bit; KMOVG gives 128 bits of ka, and KMOVK writes 128 bits of kd and leaves its others; k0 stays all
ones. -/
def Obligations.MaskOperations : Prop :=
  ∀ (e : VEntry) (r : Regs) (c : CoreId) (cond : Cond) (kd ka kb : KReg) (gd : Reg) (q : BitVec 2),
    (∀ p ∈ ([(.kand c cond kd ka kb, kreg r ka &&& kreg r kb), (.kor c cond kd ka kb, kreg r ka ||| kreg r kb),
        (.kxor c cond kd ka kb, kreg r ka ^^^ kreg r kb), (.kandn c cond kd ka kb, kreg r ka &&& ~~~(kreg r kb)),
        (.knot c cond kd ka, ~~~(kreg r ka))] : List (Instr × BitVec 512)),
      e.instr = p.1 → kreg (vecEffect e r).regs kd = (if kd = 0 then BitVec.allOnes 512 else p.2) ∧
        (∀ j : KReg, j ≠ kd → kreg (vecEffect e r).regs j = kreg r j) ∧ (vecEffect e r).regs.w = r.w) ∧
    (e.instr = .kmovg c cond gd ka q →
      (vecEffect e r).g = some (gd, (kreg r ka).extractLsb' (128 * q.toNat) 128) ∧ (vecEffect e r).regs = r) ∧
    (∀ ga, e.instr = .kmovk c cond kd ga q → (vecEffect e r).regs.w = r.w ∧
      (∀ j : KReg, j ≠ kd → kreg (vecEffect e r).regs j = kreg r j) ∧
      ∀ j, j < 512 → (kreg (vecEffect e r).regs kd).getLsbD j = (if kd = 0 then true
        else if 128 * q.toNat ≤ j ∧ j < 128 * q.toNat + 128 then e.op.val.getLsbD (j - 128 * q.toNat) else (kreg r kd).getLsbD j))

/-- Gather and scatter, with the queue and the store buffer empty, hold issue for 6 cycles and one for each active lane;
lane i, where it is processed, has cycle t + 6 + i of its own (R220-R222): a gather loads the lane, a scatter stores it,
and its mask bit is cleared. The first lane outside the bounds or LDS, or in the base-level frames below base level (log
entry 110), ends them with VEC_ELEMENT, the lanes before it done (R223). -/
def Obligations.GatherAndScatter : Prop :=
  ∀ (s : State) (c : CoreId) (cond : Cond) (v gb vi : Reg) (km : KReg), clear s c cond { banned := true } = true → km ≠ 0 →
    let o := operands s c
    let k := operandCore s c
    let t := issueCycle s c
    let a := authAt o c gb 0
    let ea (i : Nat) : Nat := (a.ea + lane 32 k.regs.w[vi] i) % 2 ^ 52
    let runs (store dec : Bool) (width : Nat) (i : Instr) : Prop :=
      let m : VMem := { store := store, dec := dec, width := width, reg := v, km := km }
      let b := width / 8
      let n := vleOf o k / width
      let fails (j : Nat) : Bool := !(inBounds a.cap.val (ea j) b && within (ea j) b 0 0x80000 &&
        (k.atBase || !overlaps (ea j) b framesOff 0x800))
      let lanes (l : List Nat) (due : Nat) (u : State) : State :=
        l.foldl (fun u j => schedule c (t + 6 + j) (if store then 1 else 0) (.lane m j (ea j) due) u) u
      let on (top : Nat) : List Nat := (List.range top).filter fun j => (kreg k.regs km).getLsbD j
      hasPerm a.cap.val (if store then permST else permLD) = true → (store = true ∨ v ≠ vi) →
      ((∀ j ∈ on n, fails j = false) → exec i s = .next (issued s c (6 + n) (lanes (on n) (t + 6 + n)))) ∧
      (∀ j ∈ on n, fails j = true → (∀ l ∈ on j, fails l = false) → k.seq.imprecise = none →
        exec i s = .next (trapped s c (7 + j) { code := 0x0C, xaddr := BitVec.ofNat 52 (ea j), xinfo := BitVec.ofNat 64 j }
          (lanes (on j) (t + 7 + j)))) ∧
      (∀ (j x due : Nat) (u : State),
        let r := (u.core c).regs
        let at_ := ldsBase c + ea j
        let clears (u : State) : State := u.modRegs c fun r => setK r km (putBit (kreg r km) j false)
        (store = true → performTimed { cycle := x, rank := 1, core := c, what := .lane m j (ea j) due } u =
          clears (strPut at_ (m.bytes r.w[v] j) u)) ∧
        (store = false → u.eccBad = [] → u.eccSoft = [] →
          performTimed { cycle := x, rank := 0, core := c, what := .lane m j (ea j) due } u =
            clears (u.modRegs c fun r => setW r v (setLane width r.w[v] j (m.value (u.bytes at_ b))))))
    vecOccupied k.ms t = 0 → presentEntries k.ms t = [] → a.cap.tag = true → isSealed a.cap = false →
    runs false false 128 (.vgathq c cond v gb vi km) ∧ runs false true 128 (.vgathd c cond v gb vi km) ∧
    runs false false 32 (.vgathw c cond v gb vi km) ∧ runs true false 128 (.vscatq c cond v gb vi km) ∧
    runs true true 128 (.vscatd c cond v gb vi km) ∧ runs true false 32 (.vscatw c cond v gb vi km)

/-! ## Floating point -/

/-- The binary32 instructions (R42, R225-R234): where no class they raise has its trap enabled, a 32-bit result with zero
fill at the distance of the operation, and the classes ORed into FPFLAGS; else FP_TRAP at the end of the issue cost,
with the classes in XINFO and nothing written. An enabled trap of a class that the operation can raise adds 2 to its
cost. -/
def Obligations.FloatingPointResults : Prop :=
  ∀ (s : State) (c : CoreId) (cond : Cond) (gd ga gb : Reg) (sh : BitVec 5),
    let k := operandCore s c
    let t := issueCycle s c
    let ctl := k.regs.fpctl
    let a := fpOp k ga
    let b := fpOp k gb
    let raw (r : Reg) : BitVec 32 := (k.reg r).val.setWidth 32
    let extra (can : BitVec 5) : Nat := if fpTraps ctl &&& can = 0 then 0 else 2
    let ends (cost : Nat) (can classes : BitVec 5) (effect : State → State) (i : Instr) : Prop :=
      (fpTraps ctl &&& classes = 0 → exec i s = .next (issued s c (cost + extra can) effect)) ∧
      (fpTraps ctl &&& classes ≠ 0 → k.seq.imprecise = none → exec i s = .next (trapped s c (cost + extra can)
        { code := 0x15, xaddr := k.pc, xinfo := classes.setWidth 64 } id))
    let gives (cost dist : Nat) (can : BitVec 5) (o : FpOut) (i : Instr) : Prop := ends cost can o.classes
      (fun u => pushFp c (t + dist) o.classes (writes c t [(dist, .reg gd (TWord.plain (o.v.setWidth 128)))] u)) i
    (clear s c cond {} = true →
      gives 1 4 0x1D (fpAdd ctl a b) (.fadd c cond gd ga gb) ∧ gives 1 4 0x1D (fpAdd ctl a b.flip) (.fsub c cond gd ga gb) ∧
      gives 1 4 0x1D (fpMul ctl a b) (.fmul c cond gd ga gb) ∧
      gives 1 4 0x1D (fpFma ctl a b (fpOp k gd)) (.ffma c cond gd ga gb) ∧
      gives 1 2 0x01 (fpMinMax ctl false (raw ga) (raw gb)) (.fmin c cond gd ga gb) ∧
      gives 1 2 0x01 (fpMinMax ctl true (raw ga) (raw gb)) (.fmax c cond gd ga gb) ∧
      gives 1 2 0 { v := raw ga ^^^ 0x80000000, classes := 0 } (.fneg c cond gd ga) ∧
      gives 1 2 0 { v := raw ga &&& 0x7FFFFFFF, classes := 0 } (.fabs c cond gd ga) ∧
      gives 1 4 0x10 (fpFromInt ctl (raw ga).toInt sh.toInt) (.fcvtsw c cond gd ga sh) ∧
      gives 1 4 0x11 (fpToInt ctl sh.toInt a) (.fcvtws c cond gd ga sh) ∧
      ends 1 0x01 (fpSnans a b)
        (fun u => pushFp c (t + 2) (fpSnans a b) (writes c t [(2, .flags 15 (fpCmpFlags a b))] u)) (.fcmp c cond ga gb)) ∧
    (clear s c cond { banned := true } = true → stepDue s c = false →
      gives 12 12 0x1F (fpDiv ctl a b) (.fdiv c cond gd ga gb) ∧ gives 14 14 0x11 (fpSqrt ctl a) (.fsqrt c cond gd ga))

/-- The stepped division and root (R235, R236): FDSTEPD and FDSTEPR write the starting pair, FDSTEP takes two steps on a
pair that was so begun, and on any other pair leaves a free value in gd + 1 (log entry 11); FDSTEPF writes 0 and the
result with its classes. A finite nonzero binary32 number is its own rounding in every mode, exactly, where neither DAZ
nor FTZ is in force (R41, R229). Every result that is a NaN is the default NaN (R231). -/
def Obligations.FloatingPointStepsAndRounding : Prop :=
  (∀ (s : State) (c : CoreId) (cond : Cond) (gd ga gb : Reg), clear s c cond {} = true → gd.val % 2 = 0 → gd ≠ 0 →
     let o := operands s c
     let k := operandCore s c
     let t := issueCycle s c
     let ctl := k.regs.fpctl
     let fill := Config.fdstepResult o.free
     let p := fdPair k gd
     exec (.fdstepd c cond gd ga gb) s = .next (issued s c 1 fun u =>
       writeFd c (t + 1) gd (fdStartDiv ctl (fpOp k ga) (fpOp k gb) fill) false { u with free := u.free + 1 }) ∧
     exec (.fdstepr c cond gd ga) s = .next (issued s c 1 fun u =>
       writeFd c (t + 1) gd (fdStartRoot ctl (fpOp k ga) fill) true { u with free := u.free + 1 }) ∧
     (∀ root, fdOrigin k gd = some root →
       exec (.fdstep c cond gd) s = .next (issued s c 1 (writeFd c (t + 1) gd (fdStep p) root))) ∧
     (fdOrigin k gd = none → exec (.fdstep c cond gd) s = .next (issued s c 1 fun u =>
       writes c t [(1, .reg gd (TWord.plain (fdStep p).words.1)), (1, .reg (pairReg gd) (TWord.plain fill))]
         { u with free := u.free + 1 })) ∧
     (let r := fdFinish ctl p
      let root := (fdOrigin k gd).getD (p.kind == 1)
      let cost := 1 + fpSurcharge ctl (if root then 0x11 else 0x1F)
      (fpTraps ctl &&& r.classes = 0 → exec (.fdstepf c cond gd) s = .next (issued s c cost fun u =>
         pushFp c (t + 1) r.classes
           (writes c t [(1, .reg gd (TWord.plain 0)), (1, .reg (pairReg gd) (TWord.plain (r.v.setWidth 128)))] u))) ∧
      (fpTraps ctl &&& r.classes ≠ 0 → k.seq.imprecise = none → exec (.fdstepf c cond gd) s = .next (trapped s c cost
         { code := 0x15, xaddr := k.pc, xinfo := r.classes.setWidth 64 } id)))) ∧
  (∀ (ctl b : BitVec 32) (neg : Bool) (m : Nat) (e : Int), fpFTZ ctl = false → fpRead false b = .num neg m e → m ≠ 0 →
     fpRound ctl neg m e false = { v := b, classes := 0 }) ∧
  (∀ (ctl : BitVec 32) (a b d : Fp) (x y : BitVec 32),
     (∀ r ∈ [fpAdd ctl a b, fpMul ctl a b, fpFma ctl a b d, fpDiv ctl a b, fpSqrt ctl a, fpMinMax ctl false x y,
         fpMinMax ctl true x y],
       (fpRead false r.v).isNan = true → r.v = 0x7FC00000))

/-! ## Capabilities -/

/-- The capability instructions that pass their checks (R273, R276-R282, R295). -/
def Obligations.CapabilityResults : Prop :=
  ∀ (s : State) (c : CoreId) (cond : Cond) (gd ga gb : Reg), clear s c cond {} = true → (s.core c).legacy = false →
    let o := operands s c
    let k := operandCore s c
    let t := issueCycle s c
    let a := k.reg ga
    let b := k.reg gb
    let gives (dist : Nat) (v : TWord) (i : Instr) : Prop :=
      exec i s = .next (issued s c 1 (writes c t [(dist, .reg gd v)]))
    let num (n : Nat) : TWord := TWord.plain (BitVec.ofNat 128 n)
    let plain := a.tag = true ∧ capOtype a.val = 0
    gives 1 (suppress o a) (.cmov c cond gd ga) ∧
    (∀ x, capBounds a.val = some x → gives 2 (num x.base) (.cgetbase c cond gd ga) ∧
      gives 2 (num (x.top - x.base)) (.cgetlen c cond gd ga)) ∧
    (capBounds a.val = none → gives 2 (num 0) (.cgetbase c cond gd ga) ∧ gives 2 (num 0) (.cgetlen c cond gd ga)) ∧
    exec (.cgettag c cond gd ga) s = .next (issued s c 1 (writes c t
      [(1, .reg gd (TWord.plain (if a.tag then 1 else 0))), (1, .flags 2 (if a.tag then 0 else 2))])) ∧
    (isSealed a = false → gives 1 (moveAddr a (capAddr b.val)) (.csetaddr c cond gd ga gb) ∧
      gives 1 (moveAddr a (capAddr a.val + capAddr b.val)) (.cincaddr c cond gd ga gb)) ∧
    (plain → gives 1 { a with val := setPerms a.val (capPerms a.val &&& b.val.setWidth 14) } (.candp c cond gd ga gb)) ∧
    (plain → (capKey a.val = 0 ∨ b.val.setWidth 4 = capKey a.val) →
      gives 1 { a with val := setKey a.val (b.val.setWidth 4) } (.csetkey c cond gd ga gb)) ∧
    (plain → ∀ r exact_, setBounds a b.val.toNat = some (r, exact_) → exec (.csetb c cond gd ga gb) s =
      .next (issued s c 1 (writes c t [(2, .reg gd r), (2, .flags 2 (if exact_ then 2 else 0))]))) ∧
    (sealChecks a b ga gb = none →
      gives 1 { a with val := setOtype a.val ((capAddr b.val).setWidth 10) } (.cseal c cond gd ga gb)) ∧
    (unsealChecks a b ga gb = none → gives 1 { a with val := setOtype a.val 0 } (.cunseal c cond gd ga gb)) ∧
    exec (.ctstsub c cond ga gb) s = .next (issued s c 1 (writes c t [(1, .flags 3 (if capSubset a b then 2 else 0))])) ∧
    (0 < b.val.toNat → b.val.toNat ≤ 2 ^ 52 → ∃ x l, x ≤ 31 ∧ b.val.toNat ≤ l ∧ l % 2 ^ x = 0 ∧ l < b.val.toNat + 2 ^ x ∧
      gives 2 (num (l + x * 2 ^ 64)) (.cprec c cond gd gb) ∧
      gives 2 (num ((capAddr a.val).toNat / 2 ^ x * 2 ^ x)) (.calgn c cond gd ga gb)) ∧
    (b.val.toNat = 0 ∨ 2 ^ 52 < b.val.toNat → gives 2 (num 0) (.cprec c cond gd gb) ∧
      gives 2 (num (capAddr a.val).toNat) (.calgn c cond gd ga gb))

/-- No capability instruction widens authority (R273, R277, R278, R281): what CSETB forms lies within the bounds of its
operand and holds the range asked for, with the same permissions, key and type; CANDP only clears permissions; CSETKEY
keeps a key that is not 0; a move of ADDR that keeps the tag keeps the bounds. CINVOKE that passes its checks branches,
after two delay slots, to the unsealed code capability, with the unsealed data capability for g31 at the target and the
return capability in g30 (R283). -/
def Obligations.CapabilitiesOnlyShrink : Prop :=
  (∀ (a : TWord) (n : Nat) (m : BitVec 14) (x : Addr),
     (∀ r exact_ o p, setBounds a n = some (r, exact_) → capBounds a.val = some o → capBounds r.val = some p →
       o.base ≤ p.base ∧ p.top ≤ o.top ∧ p.base ≤ (capAddr a.val).toNat ∧ (capAddr a.val).toNat + n ≤ p.top ∧
       capPerms r.val = capPerms a.val ∧ capKey r.val = capKey a.val ∧ capOtype r.val = capOtype a.val ∧
       capAddr r.val = capAddr a.val) ∧
     (∀ p, hasPerm (setPerms a.val (capPerms a.val &&& m)) p = true → hasPerm a.val p = true) ∧
     capBounds (setPerms a.val (capPerms a.val &&& m)) = capBounds a.val ∧
     ((moveAddr a x).tag = true → capBounds (moveAddr a x).val = capBounds a.val ∧ capAddr (moveAddr a x).val = x ∧
       capPerms (moveAddr a x).val = capPerms a.val)) ∧
  (∀ (s : State) (c : CoreId) (cond : Cond) (ga gb : Reg), clear s c cond { banned := true } = true → (s.core c).legacy = false →
     let k := operandCore s c
     let a := k.reg ga
     let b := k.reg gb
     let p := unsealed a
     invokeChecks a b ga gb = none → targetFault p.val (capAddr p.val).toNat ga.val = none →
     exec (.cinvoke c cond ga gb) s = .next (issued s c 1 fun u => takeBranch c p (some (unsealed b))
       (writes c (issueCycle s c) [(1, .reg 30 { val := setAddr k.x.pcc.val (k.pc + 12), tag := true })] u)) ∧
     capOtype a.val = capOtype b.val ∧ capOtype p.val = 0)

/-- KEYW and KEYR (R287-R291): of a global frame, KEYW writes every copy in t + 2 with bit 7 cleared, and KEYR reads the
byte in its E1, t + 2, for gd; of an attached frame both go through the data port, an overrun while it is BUSY. On a
pair KEYW, and an attached KEYR, are acts that wait for the checker. -/
def Obligations.FrameKeys : Prop :=
  (∀ (s : State) (c : CoreId) (cond : Cond) (gd ga gb : Reg), clear s c cond {} = true → (s.core c).legacy = false →
    let o := operands s c
    let k := operandCore s c
    let t := issueCycle s c
    let v := k.reg ga
    let a := (capAddr v.val).toNat
    let f := a / frameSize a * frameSize a
    let b : Byte := (k.reg gb).val.setWidth 8 &&& 0x7F
    let asks (kind : DpKind) (act : Act) (i : Instr) : Prop :=
      (busyAt k.dp t = true → exec i s = .next (issued s c 1 fun u => u.modDp c fun d => { d with err := 3 })) ∧
      (busyAt k.dp t = false → exec i s = .next (issued s c 1 fun u =>
        let w := u.modDp c fun d =>
          if kind = .keyr then { d with busy := true, err := 0, keyr := false, cnt := 0, len := 0, buf := [] }
          else { d with busy := true, err := 0 }
        if paired o c then holdAct c t 0 act w
        else schedule c (t + 3) 0 .burst
          (w.modDp c fun d => { d with req := some ⟨BitVec.ofNat 52 f, 0, t, kind, false⟩, reply := none })))
    (keyChecks v ga false = none → inGlobal a 1 = true → exec (.keyw c cond ga gb) s = .next (issued s c 1 fun u =>
      if paired o c then holdAct c t 0 (.keyw f b) u
      else { u with keyActs := insertKeyAct (t + 2, c, (f - globalBase) / 4096, b) u.keyActs })) ∧
    (keyChecks v ga false = none → inGlobal a 1 = false → asks (.keyw b) (.keyw f b) (.keyw c cond ga gb)) ∧
    (keyChecks v ga true = none → inGlobal a 1 = true → exec (.keyr c cond gd ga) s = .next (issued s c 1 fun u =>
      schedule c (t + 2) 0 (.keyr a gd (takeSeq c u).1) (takeSeq c u).2)) ∧
    (keyChecks v ga true = none → inGlobal a 1 = false → asks .keyr (.keyr f) (.keyr c cond gd ga))) ∧
  (∀ (u : State) (c : CoreId) (x a seq : Nat) (gd : Reg), paired u c = false → u.keyBad = [] → u.keySoft = [] →
    inGlobal a 1 = true → performTimed { cycle := x, rank := 0, core := c, what := .keyr a gd seq } u =
      pushAt c x seq (.reg gd (TWord.plain ((memGet u.fkeys ((a - globalBase) / 4096)).setWidth 128))) u) ∧
  (∀ (u : State) (c : CoreId) (x f t : Nat) (b : Byte), Memory.wf u.fkeys = true → u.keyActs = [(x, c, f, b)] →
    (x < t → (settleUnits t u).keyActs = [] ∧ ∀ j, memGet (settleUnits t u).fkeys j = if j = f then b else memGet u.fkeys j) ∧
    (t ≤ x → (settleUnits t u).keyActs = u.keyActs ∧ (settleUnits t u).fkeys = u.fkeys))

/-! ## The data port -/

/-- The data port (R461-R464): GO that passes its checks takes the new fields for its burst, marks the port BUSY, empties
the buffer, moves DPADDR past the bytes of a write and sends the burst, on a pair once the checker has compared it; the
fields are written at distance 2. A GO while BUSY is an overrun. DPDATA reads give 2^INC bytes and advance DPADDR, an
empty one is an overrun; DPDATA writes append at distance 2. DPWAIT is held while BUSY and counts; then it acts on ERR.
The request of a burst crosses and is performed (R285, R286, R291, R460, R463): a read that passes the key rule and
meets no error gives its bytes as they stand then; a write stores its bytes and changes no other byte of attached memory
below the tag table; a refused one leaves ERR 1 with the first byte refused and stores nothing; KEYW and KEYR write and
give the key byte. DP_RESPONSE then brings what it gave: BUSY falls in every case, with ERR, CNT and the buffer of a
read; for a burst of a pair the odd core's port two cycles later too (R465). -/
def Obligations.DataPort : Prop :=
  (∀ (s : State) (c : CoreId) (cond : Cond) (g : Reg), hasPerm (operandCore s c).x.pcc.val permSYSREG = true →
     let o := operands s c
     let k := operandCore s c
     let t := issueCycle s c
     let v := k.reg g
     let d := dpFields k.dp (v.val.setWidth 64)
     let fields (u : State) : State := writes c t [(2, .sys 0x15 v)] u
     (clear s c cond {} = true →
       (v.val.getLsbD 31 = true → busyAt k.dp t = false → goFault (o.modDp c fun _ => d) c = none →
         let a := dpAuth o c
         let bytes := if d.dir then d.buf.take d.cnt.toNat else []
         let r : DpReq :=
           ⟨BitVec.ofNat 52 a.ea, capKey a.cap.val, t, if d.dir then .write bytes else .read (64 * 2 ^ d.burst.toNat), false⟩
         exec (.dpctlGo c cond g) s = .next (issued s c 1 fun u =>
           let w := u.modDp c fun p => { p with
             addr := if d.dir ∧ d.cnt ≠ 0 then moveAddr p.addr (capAddr p.addr.val + d.cnt.setWidth 52) else p.addr,
             busy := true, err := 0, keyr := false, cnt := 0, len := 0, buf := [] }
           fields (if paired o c then holdAct c t 0 (.dpGo d.dir d.burst d.inc d.addr bytes (capKey a.cap.val)) w
             else schedule c (t + 3) 0 .burst (w.modDp c fun p => { p with req := some r, reply := none })))) ∧
       (v.val.getLsbD 31 = true → busyAt k.dp t = true → exec (.dpctlGo c cond g) s = .next (issued s c 1 fun u =>
         fields (u.modDp c fun p => { p with err := 3 }))) ∧
       (v.val.getLsbD 31 = false → exec (.dpctlGo c cond g) s =
         .next (issued s c 1 (writes c t [(2, .sys 0x15 (TWord.plain v.val))]))) ∧
       exec (.dpdataRead c cond g) s = .next (issued s c 1 fun u =>
         writes c t [(1, .reg g (TWord.plain (dpTake k.dp).1))] (u.modDp c fun _ => (dpTake k.dp).2)) ∧
       exec (.dpdataWrite c cond g) s = .next (issued s c 1 (writes c t [(2, .sys 0x16 (TWord.plain v.val))])) ∧
       (let n := 2 ^ k.dp.inc.toNat
        (k.dp.keyr = false → n ≤ k.dp.cnt.toNat → dpTake k.dp =
           (BitVec.ofNat 128 (ofLe (slice k.dp.buf (k.dp.len - k.dp.cnt.toNat) n)), { k.dp with
             cnt := k.dp.cnt - BitVec.ofNat 13 n, addr := moveAddr k.dp.addr (capAddr k.dp.addr.val + BitVec.ofNat 52 n) })) ∧
        (k.dp.keyr = false → k.dp.cnt.toNat < n → dpTake k.dp = (0, { k.dp with err := 3 })) ∧
        (k.dp.keyr = true → dpTake k.dp =
           (BitVec.ofNat 128 (ofLe (k.dp.buf.take 1)), { k.dp with keyr := false, cnt := 0, len := 0, buf := [] })))) ∧
     (clear s c cond { banned := true } = true →
       (k.dp.busy = true ∨ t < k.dp.fall → ∃ u, exec (.dpwait c cond) s = .next u ∧ (u.core c).dp.stall = k.dp.stall + 1 ∧
         (u.core c).seq.nextIssue = t + 1 ∧ (u.core c).pc = k.pc) ∧
       (k.dp.busy = false → k.dp.fall ≤ t →
         (k.dp.err = 0 ∨ k.dp.err = 3 → exec (.dpwait c cond) s = .next (issued s c 1 id)) ∧
         (k.dp.err = 1 → k.seq.imprecise = none → exec (.dpwait c cond) s =
           .next (deliver c t (Trap.cause (capTrap 0x08 k.dp.bad.toNat 34) k) o)) ∧
         (k.dp.err = 2 → exec (.dpwait c cond) s = .next (issued s c 1 (machineCheck c (t + 1) 2 k.dp.bad.toNat)))))) ∧
  ((∀ (s : State) (c : CoreId) (r : DpReq) (x : Nat), (s.core c).dp.req = some r →
     let a := r.addr.toNat
     let u := performTimed { cycle := x, rank := 0, core := c, what := .burst } s
     let gives (rep : DpReply) : Prop := (u.core c).dp = { (s.core c).dp with reply := some rep }
     (∀ n, r.kind = .read n → attachedCheck s r.key false a n = none → gives ⟨0, 0, some (s.bytes a n), false⟩) ∧
     (∀ n p, r.kind = .read n → keyTableBad s a n = none → keyRefusal s r.key false a n = some p →
       gives ⟨1, BitVec.ofNat 52 p, none, false⟩ ∧ u.mem = s.mem) ∧
     (∀ bs, r.kind = .write bs → attachedCheck s r.key true a bs.length = none → gives ⟨0, 0, none, false⟩ ∧
       (Memory.wf s.mem = true → attBase ≤ a → a + bs.length ≤ attUsable →
         (∀ i, i < bs.length → memGet u.mem (a + i) = bs.getD i 0) ∧
         ∀ x, x < a ∨ a + bs.length ≤ x → x < attUsable → memGet u.mem x = memGet s.mem x)) ∧
     (∀ bs p, r.kind = .write bs → keyTableBad s a bs.length = none → keyRefusal s r.key true a bs.length = some p →
       gives ⟨1, BitVec.ofNat 52 p, none, false⟩ ∧ u.mem = s.mem) ∧
     (∀ b, r.kind = .keyw b → keyTableBad s a 1 = none → gives ⟨0, 0, none, false⟩ ∧ u.mem = (setKeyByte s a b).mem) ∧
     (r.kind = .keyr → keyTableBad s a 1 = none → gives ⟨0, 0, some [keyByte s a], true⟩ ∧ u.mem = s.mem)) ∧
   (∀ (s : State) (c : CoreId) (r : DpReq) (rep : DpReply), (s.core c).dp.req = some r →
     let x := max s.now (r.go + 3)
     let v := settle x s
     let o := oddCore (pairOf c)
     let brought (fall : Nat) (d : Machine.DataPort) : Machine.DataPort :=
       let d := { d with busy := false, fall := fall, err := if rep.err = 0 then d.err else rep.err, bad := rep.bad }
       match rep.data with
       | some bs => { d with buf := bs, len := bs.length, cnt := BitVec.ofNat 13 bs.length, keyr := rep.keyr }
       | none => d
     (v.core c).dp.reply = some rep →
     let u := v.modDp c fun d => { brought (x + 1) d with req := none, reply := none }
     exec (.dpResponse c) s = .next
       (if r.twin && (u.core o).dp.busy && (u.core o).dp.req.isNone then u.modDp o (brought (x + 3)) else u)))

/-! ## Events -/

/-- The event instructions (R343, R345): EVRAISE of an allowed number raises its source a cycle after issue, and of any
other number raises CAP_BOUNDS; EVACK and EVCLR clear the S or P bit two cycles after it; EVNEXT gives the priority and
number of the event that would be taken, or 0x200 with Z set, read once for both cores of a pair. The others of a pair
wait for the checker. Without EVENT in the PCC each raises CAP_PERM. How a raise reaches a core (R334, R336, R338,
R340): a raise of an enabled source, routed to one present core that runs, sets the P bit of that core two cycles later
and no other bit of it; under BCAST it goes to every target core that is not held; with every target core passed over it
is held at the controller; EVACK and EVCLR of the same cycle come before it; a source of priority 0 reaches none. A
pulse source that drove its line in the cycle before raises nothing more under edge delivery (R335). A timer that is
enabled fires at CMP and raises its event; a one-shot timer is disabled, a periodic one moves on by its period (R344). A
raise held at the controller goes to one core once a target core takes raises again, by the routing of then (R336; log
entry 108). -/
def Obligations.EventsAndTimers : Prop :=
  (∀ (s : State) (c : CoreId) (cond : Cond) (g : Reg), clear s c cond {} = true →
     let o := operands s c
     let k := operandCore s c
     let t := issueCycle s c
     let n := evNumber k g
     let allowed := n.val < 48 ∨ 448 ≤ n.val ∧ n.val ≤ 495
     let does (fn : Nat) (f : State → State) (i : Instr) : Prop :=
       exec i s = .next (issued s c 1 fun u => if paired o c then holdAct c t 0 (.event fn n) u else f u)
     let traps (code : BitVec 8) (i : Instr) : Prop :=
       exec i s = .next (deliver c t (Trap.cause (capTrap code 0 32) k) o)
     (hasPerm k.x.pcc.val permEVENT = true →
       (allowed → does 0 (raise n (t + 1)) (.evraise c cond g)) ∧
       (¬allowed → k.seq.imprecise = none → traps 0x05 (.evraise c cond g)) ∧
       does 1 (fun u => evSchedule (t + 2) (evCore u c) n .ack u) (.evack c cond g) ∧
       does 2 (fun u => evSchedule (t + 2) (evCore u c) n .clr u) (.evclr c cond g) ∧
       exec (.evnext c cond g) s = .next (issued s c 1 fun u =>
         let r := sharedValue c (evnextWord (settle (t + 1) u) c) u
         writes c t [(2, .reg g (TWord.plain r.1)), (2, .flags 2 (if r.1 = 0x200 then 2 else 0))] (markEvnext c (t + 1) g r.2))) ∧
     (hasPerm k.x.pcc.val permEVENT = false → k.seq.imprecise = none →
       traps 0x06 (.evraise c cond g) ∧ traps 0x06 (.evack c cond g) ∧ traps 0x06 (.evclr c cond g) ∧
       traps 0x06 (.evnext c cond g))) ∧
  (∀ (s : State) (n : EventId) (c : CoreId) (r : Nat), isBaseEvent n = false → s.ev.acts = [] →
     (evPrio s n = 0 → (raiseCores n r s) = s) ∧
     (evPrio s n ≠ 0 → evBcast s n = false → evTargets s n = [c] → passedOver s c = false →
       (raiseCores n r s).ev.acts = [{ due := r + 2, core := c, ev := n, what := .raise (evLevel s n) }]) ∧
     (evPrio s n ≠ 0 → evBcast s n = true → ∀ x, x ∈ (raiseCores n r s).ev.acts ↔
       ∃ d ∈ evTargets s n, (s.core d).seq.inReset = false ∧
         x = { due := r + 2, core := d, ev := n, what := .raise (evLevel s n) }) ∧
     (evPrio s n ≠ 0 → evBcast s n = false → (∀ d ∈ evTargets s n, passedOver s d = true) →
       raiseCores n r s = { s with ev := { s.ev with held := putBit s.ev.held n.val true } }) ∧
     (s.ev.lastPulse[n] < r + 1 → (raise n r s).ev.acts = (raiseCores n r s).ev.acts) ∧
     (s.ev.lastPulse[n] = r + 1 → evLevel s n = false → (raise n r s).ev.acts = s.ev.acts) ∧
     (∀ (k : Core) (j : Nat), (applyEvDo k n (.raise false)).evP.getLsbD j = (k.evP.getLsbD j || decide (j = n.val)) ∧
       (applyEvDo k n .clr).evP.getLsbD j = (k.evP.getLsbD j && decide (j ≠ n.val)) ∧
       (applyEvDo k n .ack).evS.getLsbD j = (k.evS.getLsbD j && decide (j ≠ n.val)) ∧
       (applyEvDo k n (.raise true)).evP.getLsbD j = (k.evP.getLsbD j || (decide (j = n.val) && !k.evS.getLsbD j)))) ∧
  (∀ (s : State) (c : CoreId) (n : EventId),
     let tm := s.ev.timers[c]
     let r := max s.now tm.cmp.toNat
     (tm.en = true → ∃ u, exec (.timerFire c) s = .next (raise (evNo (48 + c.val)) r u) ∧
       u = { settle r s with ev := u.ev } ∧ { u.ev with timers := (settle r s).ev.timers } = (settle r s).ev ∧
       (∀ d, d ≠ c → u.ev.timers[d] = (settle r s).ev.timers[d]) ∧
       let z := (settle r s).ev.timers[c]
       u.ev.timers[c] = (if z.per then { z with cmp := z.cmp + (if z.period = 0 then 1 else z.period.setWidth 64) }
         else { z with en := false })) ∧
     (tm.en = false → exec (.timerFire c) s = .next s) ∧
     (s.ev.held.getLsbD n.val = true → evPrio s n ≠ 0 → (evTargets s n).any (fun c => !passedOver s c) = true →
       exec (.heldRaiseDelivery n) s = .next (raiseOne n s.now { s with ev := { s.ev with held := putBit s.ev.held n.val false } }) ∧
       ∃ d ∈ evTargets s n, passedOver s d = false ∧
         ∃ v, raiseOne n s.now { s with ev := { s.ev with held := putBit s.ev.held n.val false } } =
           evSchedule (s.now + 2) d n (.raise (evLevel s n)) v ∧ v.ev.held = putBit s.ev.held n.val false ∧ v.ev.acts = s.ev.acts))

/-! ## Engines and keys -/

/-- A request of an engine (R378, R379, R381-R383, R392, R528): ESUB that passes its checks submits the request after its
issue cycle, on a pair once the checker has compared it; it answers 2 where the engine is absent or closed to its level,
1 where it is full, and else 0 with the request accepted. The request enters its queue in its fabric cycle, and starts
its fetch with the read of its descriptor; its stages take the cycles of its blocks and of its operation. Its write-
back, ZEROISED where it was marked, sends the blocks of its output and then STATUS and OUTLEN, KEY_MISMATCH where a
block was refused, and it completes, counted in DONE, with the event of a curve engine. -/
def Obligations.EngineRequests : Prop :=
  (∀ (s : State) (c : CoreId) (cond : Cond) (gd ga gb : Reg), clear s c cond {} = true → (s.core c).legacy = false →
    let o := operands s c
    let k := operandCore s c
    let t := issueCycle s c
    let e := (k.reg gd).val.toNat % 64
    esubChecks k ga gb = none → exec (.esub c cond gd ga gb) s = .next (issued s c 1 fun u =>
      if paired o c then holdAct c t gd (.esub (BitVec.ofNat 6 e) (k.reg ga) (k.reg gb) k.atBase) u
      else
        let n := (takeSeq c u).1
        schedule c t 2 (.esub e (k.reg ga) (k.reg gb) k.atBase (c, n) [⟨c, t, gd, n⟩]) (takeSeq c u).2)) ∧
  (∀ (s : State) (x e : Nat) (c : CoreId) (a b : TWord) (base : Bool) (after : CoreId × Nat) (dests : List ResultTo),
    let answers (r : Word) (v : State) : Prop :=
      performTimed { cycle := x, rank := 2, core := c, what := .esub e a b base after dests } s =
        dests.foldl (fun z d => pushAt d.core (d.cycle + 2) d.seq (.reg d.reg (TWord.plain r)) z) v
    (49 ≤ e ∨ enginePresent s e = false ∨ (e = 32 ∧ base = false) → answers 2 s) ∧
    (∀ h : e < 49, enginePresent s e = true → (e ≠ 32 ∨ base = true) →
      let g := s.engines[e]
      let n := occupied g (x / 2) + (g.accepted.filter fun r => r.source.isCore).length
      (4 ≤ n → answers 1 s) ∧
      (n < 4 → answers 0 (modEngine ⟨e, h⟩ (fun g => { g with accepted := g.accepted ++
        [{ ga := a, gb := b, source := .core c base, entry := fcFrom (x + 3), after := some after, marked := false }] }) s)))) ∧
  (∀ (s : State) (e : EngineId),
    let v := settlePort s
    let g := v.engines[e]
    (∀ r rest, g.accepted = r :: rest → r.source.isCore = true → exec (.engineQueueEntry e) s = .next
      (modEngine e (fun g => { g with accepted := g.accepted.drop 1, queue := g.queue ++ [r] }) (settle (max v.now (2 * r.entry)) v))) ∧
    (∀ f r, fetchStart g = some f → fetchNext g f = some r →
      let w := modEngine e (fun g => { dequeue r g with fetch := some (stageUnknown r f) }) (settle (max v.now (2 * f)) v)
      let q : BgReq := ⟨64 + e.val, (capAddr r.ga.val).toNat, f, r.after, 4 * f, 0, .read 64⟩
      (r.source.isCore = true →
        exec (.engineFetch e) s = .next (schedule 0 (2 * f) 0 (.send q (some (capKey r.ga.val)) true) w)) ∧
      (r.source.isCore = false → ∃ u st, exec (.engineFetch e) s = .next u ∧ u.engines[e].fetch = some st ∧ st.req = r ∧
        st.input = r.source.bytes ∧ st.start = f ∧ st.fetchEnd + 1 = f + 130 ∧ st.unread = false)) ∧
    (∀ r f z x, let st := stageOf r f z x
      st.fetchEnd + 1 = f + 130 + 4 * blocksOf x.inAddr x.shape.inLen ∧ st.cmpStart = max st.fetchEnd z + 1 ∧
      st.cmpEnd + 1 = st.cmpStart + x.shape.count ∧ st.wbEnd = st.cmpEnd + 130 + 4 * blocksOf x.outAddr x.shape.outLen) ∧
    (∀ st d f, s.engines[e].fetch = some st → st.known = false → doneOf s (64 + e.val) (4 * st.start) = [d] →
      let w := dropDone d.who d.job s
      let x := if d.refused.isSome then fetchBare st.req
        else checkDesc w e.val st.req (parseDesc d.bytes (d.tags.contains ((capAddr st.req.ga.val).toNat + 16))
          (d.tags.contains ((capAddr st.req.ga.val).toNat + 32)))
      (engineGot e f s).engines[e].fetch = some (stageOf st.req st.start s.engines[e].cmpEnd x)) ∧
    (∀ st f, s.engines[e].fetch = some st → st.known = true → st.unread = true →
      let n := st.desc.inlen
      let ds := doneOf s (64 + e.val) (4 * st.start + 1)
      blocksOf (dataAddr st.req.gb st.desc.inoff) n ≤ ds.length →
      let pre := if ds.any fun d => d.refused.isSome then 6 else if ds.any fun d => d.bad.isSome then 10 else st.pre
      (engineGot e f s).engines[e].fetch = some { st with unread := false, input := gathered ds n, pre := pre }) ∧
    (let v := if s.engines[e].run.isEmpty then settleFetch e s else s
     ∀ st0 g0, wbNext v.engines[e] = some (st0, g0) →
      let w := settle (max v.now (2 * (st0.cmpEnd + 1))) v
      ∀ st g, wbNext w.engines[e] = some (st, g) →
        let r := if st.req.marked then EngResult.of 11 else st.result
        let u := modEngine e (fun _ => { g with wb := g.wb ++ [{ st with result := r }] }) w
        exec (.engineWriteback e) s = .next (if st.req.source.isCore && !st.refused
          then schedule 0 (2 * (st.wbEnd - 129)) 0 (.engStatus e.val st.start) (sendOutput e st (st.cmpEnd + 1) r u) else u)) ∧
    (∀ st x, (s.engines[e].wb.find? fun y => y.start = st.start) = some st →
      let r := if (doneOf s (64 + e.val) (4 * st.start + 2)).any fun d => d.refused.isSome then EngResult.of 6 else st.result
      let u := modEngine e (fun g => { g with wb := g.wb.map fun y => if y.start = st.start then { y with result := r } else y }) s
      let bytes := leBytes 2 r.status.toNat ++ leBytes 2 r.out.length
      performTimed { cycle := x, rank := 0, core := 0, what := .engStatus e.val st.start } s =
        schedule 0 (2 * (x / 2)) 0 (.send ⟨64 + e.val, (capAddr st.req.ga.val).toNat + 0x38, x / 2, none, 4 * st.start + 3, 0,
          .write (bytes.map some) []⟩ (some (capKey st.req.ga.val)) true) u) ∧
    (∀ st, firstEnd s.engines[e].wb = some st →
      let x := max s.now (2 * st.wbEnd)
      let w := settle x s
      ∃ u, exec (.engineCompletion e) s = .next u ∧ u.mem = w.mem ∧ u.now = w.now ∧
        u.engines[e] = { w.engines[e] with
          wb := w.engines[e].wb.filter fun y => y.start ≠ st.start, done := w.engines[e].done + 1 } ∧
        (e.val < 32 → u.ev = (raise (evNo (288 + e.val)) x w).ev)))

/-- The operations of the engines (R384-R390, R393, R529): a request fetched for an operation, its input read, leaves the
fetch stage with its result. ZEROISED stands first for KEXP and KRST while the erase of the DMK is held; then the status
that its fetch gave, then KEY_SUPPRESSED in lean mode, ECC for an uncorrectable slot, and KEY_INVALID where the key it
names does not fit. Hashes, and ciphers and MACs under the key that KEY1 names, give their function of the input; KDEL
deletes its key. -/
def Obligations.EngineOperations : Prop :=
  ∀ (s : State) (e : EngineId) (st : EngStage),
    let v := settleFetch e s
    v.engines[e].fetch = some st → st.known = true → st.refused = false → st.unread = false → st.pre ≠ 2 →
    ∀ p ∈ ([(0x0101, .ecdsaP256Sign e), (0x0102, .ecdsaP256Verify e), (0x0103, .ecdsaP384Sign e),
        (0x0104, .ecdsaP384Verify e), (0x0105, .ed25519Sign e), (0x0106, .ed25519Verify e), (0x0107, .ecdhP256 e),
        (0x0108, .ecdhP384 e), (0x0109, .keyPairGenerationP256 e), (0x010A, .keyPairGenerationP384 e),
        (0x010B, .keyPairGenerationEd25519 e), (0x0111, .rsaSign2048 e), (0x0112, .rsaSign3072 e), (0x0113, .rsaSign4096 e),
        (0x0114, .rsaVerify2048 e), (0x0115, .rsaVerify3072 e), (0x0116, .rsaVerify4096 e), (0x0201, .aesEcb e),
        (0x0202, .aesCbc e), (0x0203, .aesGcm e), (0x0204, .aesCmac e), (0x0205, .tdesEcb e), (0x0206, .tdesCbc e),
        (0x0207, .sha256 e), (0x0208, .sha384 e), (0x0209, .sha3256 e), (0x020A, .hmacSha256 e), (0x020B, .hmacSha384 e),
        (0x020C, .pinTranslation e), (0x020D, .rand e), (0x0301, .kgen e), (0x0302, .kimp e), (0x0303, .kpub e),
        (0x0304, .kexp e), (0x0305, .krst e), (0x0306, .kdel e)] ++
        (if e = 32 then [(0x0180, .idsign)] else []) : List (Nat × Instr)),
      st.desc.op.toNat = p.1 → ∃ u r, exec p.2 s = .next u ∧ u.engines[e].fetch = none ∧
        u.engines[e].run = v.engines[e].run ++ [{ st with result := r }] ∧ u.mem = v.mem ∧ u.now = v.now ∧
        let held := p.1 ∈ [0x0304, 0x0305] ∧ v.ks.zpend = true
        let gives (x : BitVec 16) : Prop := r = EngResult.of x ∧ u.ks = v.ks
        let keyed := [0x0201, 0x0202, 0x0203, 0x0204, 0x0205, 0x0206, 0x020A, 0x020B]
        (held → gives 11) ∧ (¬held → st.pre ≠ 0 → gives st.pre) ∧
        (¬held → st.pre = 0 → v.lean = true → isHandle st.desc.key1 = true → gives 4) ∧
        (st.pre = 0 → v.lean = false → p.1 ∈ keyed → keyNamed v.ks st.desc.key1 = none →
          (v.ks.badSlots = [] → gives 3) ∧
          (isHandle st.desc.key1 = true → (capAddr st.desc.key1.val).toNat % 65536 ∈ v.ks.badSlots → gives 10)) ∧
        (st.pre = 0 → v.lean = false →
          (p.1 = 0x0207 → r = EngResult.ok (sha256Bytes st.input)) ∧ (p.1 = 0x0208 → r = EngResult.ok (sha384Bytes st.input)) ∧
          (p.1 = 0x0209 → r = EngResult.ok (sha3Bytes st.input)) ∧
          ∀ k, keyNamed v.ks st.desc.key1 = some k → v.ks.badSlots = [] →
            let d := st.desc
            let fits (types : List Nat) (use : Nat) : Prop := k.ktype.toNat ∈ types ∧ k.usage.getLsbD use = true
            let way := if d.dec then 3 else 2
            let mac (n : Nat) (f : List Byte → List Byte) : EngResult :=
              let x := st.input.take (st.input.length - n)
              if d.dec then (if f x = lastBytes n st.input then EngResult.ok [] else EngResult.of 1) else EngResult.ok (f st.input)
            (p.1 = 0x0201 → fits [1, 2] way → r = EngResult.ok (ecbMode 16 (aesDir d k.material) st.input)) ∧
            (p.1 = 0x0202 → fits [1, 2] way → r =
              EngResult.ok (cbcMode 16 d.dec (aesDir d k.material) (st.input.take 16) (st.input.drop 16))) ∧
            (p.1 = 0x0204 → fits [1, 2] 4 → r = mac 16 (aesCmacBytes k.material)) ∧
            (p.1 = 0x0205 → fits [3, 4] way → r = EngResult.ok (ecbMode 8 (tdesBlock d.dec k.material) st.input)) ∧
            (p.1 = 0x0206 → fits [3, 4] way → r =
              EngResult.ok (cbcMode 8 d.dec (tdesBlock d.dec k.material) (st.input.take 8) (st.input.drop 8))) ∧
            (p.1 = 0x020A → fits [0x05, 0x13] 4 → r =
              if k.material.length = 32 then mac 32 (hmacBytes sha256Bytes 64 k.material) else EngResult.of 3) ∧
            (p.1 = 0x020B → fits [0x06, 0x13] 4 → r =
              if k.material.length = 48 then mac 48 (hmacBytes sha384Bytes 128 k.material) else EngResult.of 3) ∧
            (p.1 = 0x0306 → k.ktype.toNat < 20 → st.req.source.isCore = true → hasPerm st.req.ga.val permSYSREG = true →
              r = EngResult.ok [] ∧ u.ks = deleteKey k v.ks))

/-- Keys and randomness (R389-R397): a key created is the one its handle names, and a handle names nothing once its key is
deleted. Zeroisation, also by KSCTL.ZERO and by a tamper input, marks the requests in the queues and in fetch, erases
the DMK or, under the inhibit, holds its erase until the inhibit has ended, and begins the overwriting of the key store:
16 slots in each fabric cycle, EPOCH advancing in the first. The DRBG restarts for 2 ms, passes or fails its tests, and
reseeds; the repetition count test fails on 41 equal samples, the adaptive proportion test where 794 of a window of
1,024 equal its first. -/
def Obligations.KeysAndRandomness : Prop :=
  (∀ (s : State) (f t : Nat) (usage : BitVec 16) (label mat : List Byte), 0 < keySlots t → t < 256 →
    slotsFree s.ks f (keySlots t) = true → (∀ k ∈ s.ks.keys, 0 < k.nslot) → slotGen s.ks f < 2 ^ 20 →
    let x := createKey f t usage label mat s
    x.1.status = stOk ∧ x.1.out = leBytes 16 (handleOf x.2.ks f).toNat ∧
    keyNamed x.2.ks { val := handleOf x.2.ks f, tag := true } = some
      { slot := f, ktype := BitVec.ofNat 8 t, nslot := keySlots t, usage := usage &&& 0x3FF, label := padTo 8 label, material := mat }) ∧
  (∀ (ks : KeyStore) (k : KeyEntry) (h : TWord), keyNamed ks h = some k → keyNamed (deleteKey k ks) h = none) ∧
  (∀ (s : State) (pin : TamperId),
    let hit := pulse 339 { s with sb := { s.sb with tamper := putBit s.sb.tamper pin.val true } }
    ∀ p ∈ ([(.zeroisation, s), (.ksctlZero, s), (.tamperInput pin, hit)] : List (Instr × State)),
      let w := settle (evenFrom p.2.now) p.2
      ∃ u, exec p.1 s = .next u ∧ u.ks.sweep = some (w.now / 2, 0) ∧ u.ks.zpend = w.pw.minh ∧ u.ks.keys = w.ks.keys ∧
        (w.pw.minh = false → u.ks.dmk = none ∧ u.ks.dmkValid = false) ∧ (w.pw.minh = true → u.ks.dmk = w.ks.dmk) ∧
        (∀ e : EngineId, ∀ r ∈ u.engines[e].queue ++ u.engines[e].jqueue, r.marked = true) ∧
        (∀ e : EngineId, ∀ st, u.engines[e].fetch = some st → st.known = false ∨ w.now / 2 < st.cmpStart ∨ usesKeys st.desc = true →
          st.req.marked = true) ∧ u.mem = w.mem ∧ u.sb = w.sb) ∧
  (∀ (ks : KeyStore) (z f : Nat), ks.sweep = some (z, 0) → z < f →
    (sweepStore f ks).epoch = ks.epoch + 1 ∧
    (∀ k, k ∈ (sweepStore f ks).keys ↔ k ∈ ks.keys ∧ min 65536 (16 * (f - z)) ≤ k.slot) ∧
    (z + 4096 ≤ f → (sweepStore f ks).sweep = none)) ∧
  (∀ (s : State) (t : Nat), (settleUnits t s).ks = sweepStore (t / 2) s.ks) ∧
  (∀ s : State, (s.ks.zpend = true → s.pw.minh = false → ∃ u, exec .dmkErase s = .next u ∧ u.ks.dmk = none ∧
      u.ks.dmkValid = false ∧ u.ks.zpend = false) ∧
    (s.ks.zpend = false ∨ s.pw.minh = true → exec .dmkErase s = .next s)) ∧
  (∀ s : State, ∃ u, exec .drbgctlRestart s = .next u ∧ u.drbg.state = 0 ∧ u.drbg.testUntil = s.now + nsToCc s 2000000) ∧
  (∀ (s : State) (x : Bool) (r : List Bool), s.drbg.state = 0 →
    let l := x :: r
    let w := settle (max s.now s.drbg.testUntil) s
    ∃ u, exec (.drbgStartupTest x r) s = .next u ∧ u.now = w.now ∧
    ((rctFails l || aptFails l) = false → u.drbg.state = 1 ∧ ∀ e : EngineId, u.engines[e].drbg.count = 0) ∧
    ((rctFails l || aptFails l) = true → u.drbg.state = 2 ∧ u.drbg.failcnt = satAdd w.drbg.failcnt 1)) ∧
  (∀ (s : State) (x : Bool) (r : List Bool),
    let l := x :: r
    ((rctFails l || aptFails l) = true → ∃ u, exec (.continuousTestFailure x r) s = .next u ∧
      u.drbg.state = 2 ∧ u.drbg.failcnt = satAdd s.drbg.failcnt 1 ∧ u.drbg.rct = (s.drbg.rct || rctFails l) ∧
      u.drbg.apt = (s.drbg.apt || aptFails l)) ∧
    ((rctFails l || aptFails l) = false → exec (.continuousTestFailure x r) s = .next s) ∧
    (rctFails l = true ↔ ∃ a b x, l = a ++ List.replicate 41 x ++ b) ∧
    (aptFails l = true ↔ ∃ b, l.head? = some b ∧ 794 ≤ ((l.take 1024).filter fun x => x == b).length)) ∧
  (∀ (s : State) (e : EngineId), s.engines[e].wb ≠ [] → ∃ u entropy, exec (.drbgReseed e) s = .next u ∧ entropy.length = 48 ∧
    u.engines[e] = { s.engines[e] with drbg := drbgReseeded entropy s.engines[e].drbg } ∧ u.engines[e].drbg.count = 0)

/-! ## The journal -/

/-- Records of the journal (R404-R416, R531): JCOMMIT is taken after its issue cycle, on a pair once the checker has
compared it, and answers the CNUM of the record it accepts, or a status, with Z; the record enters the queue, its
payload is read block by block, it is hashed in its turn over the chain value before it, chained, and released, PROD
passing it. A payload that could not be read is zeros, with FERR. An entry on which the two cores disagree twice stops
the chain. The drainer's count moves CONS. -/
def Obligations.JournalRecords : Prop :=
  (∀ (s : State) (c : CoreId) (cond : Cond) (gd ga gb : Reg), clear s c cond {} = true → (s.core c).legacy = false →
    let o := operands s c
    let k := operandCore s c
    let t := issueCycle s c
    commitChecks o k ga gb = none → exec (.jcommit c cond gd ga gb) s = .next (issued s c 1 fun u =>
      if paired o c then holdAct c t gd (.jcommit (k.reg ga) (k.reg gb).val) u
      else
        let n := (takeSeq c u).1
        schedule c t 2 (.jcommit none (k.reg ga) (k.reg gb).val (c, n) [⟨c, t, gd, n⟩]) (takeSeq c u).2)) ∧
  (∀ (s : State) (x : Nat) (c : CoreId) (pair : Option PairId) (ga : TWord) (gb : Word) (after : CoreId × Nat) (dests : List ResultTo),
    let st := commitStatus s.jn gb.toNat
    let n := s.jn.cnum + 1
    let answers (r : Word) (z : Bool) (v : State) : Prop :=
      performTimed { cycle := x, rank := 2, core := c, what := .jcommit pair ga gb after dests } s = dests.foldl (fun y d =>
        pushAt d.core (d.cycle + 4) d.seq (.flags 3 (if z then 2 else 0))
          (pushAt d.core (d.cycle + 4) d.seq (.reg d.reg (TWord.plain r)) y)) v
    (st ≠ 0 → answers (BitVec.ofNat 128 (st * 2 ^ 64)) false s) ∧
    (st = 0 → n < 2 ^ 64 → ∃ v i, answers (BitVec.ofNat 128 n) true v ∧ v.jn.cnum = n ∧ v.mem = s.mem ∧
      v.jn.reserved = s.jn.reserved + entrySize false (gb.toNat % 4096) ∧ v.jn.accepted = s.jn.accepted ++ [i] ∧ i.cnum = n ∧
      i.addr = (capAddr ga.val).toNat ∧ i.len = gb.toNat % 4096 ∧ i.kind = .record (BitVec.ofNat 8 (gb.toNat / 65536)) ∧
      i.core = BitVec.ofNat 8 c.val ∧ i.pair = (pair.map fun p => BitVec.ofNat 8 p.val).getD 0xFF ∧ i.key = capKey ga.val ∧
      i.cycle = BitVec.ofNat 64 s.now ∧ i.due = fcFrom (s.now + 3)) ∧
    (s.jn.run = false ∨ s.jn.fault = true → st = 2)) ∧
  (∀ s : State,
    let v := settlePort s
    (∀ i r, v.jn.accepted = i :: r →
      let w := settle (max v.now (2 * i.due)) v
      exec .commitQueueEntry s = .next { w with jn := { w.jn with accepted := w.jn.accepted.drop 1, queue := w.jn.queue ++ [i] } }) ∧
    (∀ i r, v.jn.queue = i :: r → v.jn.fetch = none →
      let b := blocksOf i.addr i.len
      let f0 := max i.due v.jn.fetchEnd
      let w := settle (max v.now (2 * f0)) v
      exec .payloadFetch s = .next ((blockParts i.addr i.len).zipIdx.foldl (fun u p =>
        schedule 0 (2 * (f0 + 4 * p.2)) 0
          (.send ⟨113, p.1.1, f0 + 4 * p.2, i.after, i.cnum, p.1.1 - i.addr, .read p.1.2⟩ (some i.key) false) u)
        { w with jn := { w.jn with queue := w.jn.queue.drop 1, fetchEnd := f0 + 130 + 4 * b,
                                   fetch := some { item := i, start := f0, stop := f0 + 130 + 4 * b - 1 } } })) ∧
    (∀ f, s.jn.fetch = some f →
      let w := awaitBg 113 bgFuel (settle (max s.now (2 * f.stop)) s)
      let ds := doneOf w 113 f.item.cnum
      let i := if ds.any fun d => d.refused.isSome then { f.item with ferr := 1 }
        else if ds.any fun d => d.bad.isSome then { f.item with ferr := 2 } else { f.item with payload := gathered ds f.item.len }
      ∃ u, exec .payloadFetchEnd s = .next u ∧ u.jn.fetch = none ∧ u.jn.fdone = f.item.cnum ∧
        u.jn.fetched = w.jn.fetched ++ [{ i with due := f.stop }] ∧ u.mem = w.mem ∧
        (i.ferr ≠ 0 → u.jn.ferr = f.item.cnum ∧ u.jn.fecnt = satAdd w.jn.fecnt 1) ∧
        (i.ferr = 0 → u.jn.fecnt = w.jn.fecnt)) ∧
    (∀ i f d, s.jn.hash = none → hashNext s.jn = some (i, f) → s.jn.fault = false →
      let w := settle (max s.now (2 * f)) s
      ∃ u h, exec (.entryHash d) s = .next u ∧ u.jn.hash = some h ∧ h.item = i ∧ h.disagree = d ∧ h.retried = false ∧
        h.stop + 1 = f + hashCount i.len ∧ u.now = w.now ∧
        (∀ t, i.kind = .record t → h.seqNo = w.jn.hseq + 1 ∧ h.prev = w.jn.head ∧
          h.body = i.header h.seqNo ++ (if i.ferr = 0 then i.payload else List.replicate i.len 0))) ∧
    (∀ h d, s.jn.hash = some h → h.disagree = true → h.retried = false →
      let w := settle (max s.now (2 * (h.stop + 1))) s
      let stop := h.stop + hashCount h.item.len
      exec (.entryHash d) s = .next { w with jn := { w.jn with
        hash := some { h with retried := true, disagree := d, stop := stop }, hashEnd := stop } }) ∧
    (∀ h, s.jn.hash = some h →
      let w := settle (max s.now (2 * h.stop)) s
      (h.disagree = false → ∃ u o, exec .entryChaining s = .next u ∧ u.jn.hash = none ∧
        u.jn.hseq = h.seqNo ∧ u.jn.head = sha256Bytes (h.prev ++ h.body) ∧ u.jn.outs = w.jn.outs ++ [o] ∧
        o.size = h.item.size ∧ o.ready = h.stop + 300 + 4 * (h.item.size / 64) ∧ u.jn.run = (w.jn.run || !h.item.kind.isCk)) ∧
      (h.disagree = true → h.retried = true → ∃ u, exec .entryChaining s = .next u ∧
        u.jn.fault = true ∧ u.jn.run = false ∧ u.jn.hash = none ∧ u.jn.head = w.jn.head ∧ u.mem = w.mem)) ∧
    (∀ o r, s.jn.outs = o :: r → o.unsigned = false →
      let late := Config.lateCrossing s.free
      let w := settle (max s.now (2 * (o.ready + if late then 1 else 0))) { s with free := s.free + 1 }
      ∃ u, exec .entryRelease s = .next u ∧ u.jn.outs = r ∧ u.jn.prod = w.jn.prod + o.size ∧ u.mem = w.mem ∧ 2 * o.ready ≤ u.now) ∧
    (∀ n : BitVec 64, (n.toNat % 64 = 0 ∧ s.jn.cons ≤ n.toNat ∧ n.toNat ≤ s.jn.prod →
        ∃ u, exec (.jrcons n) s = .next u ∧ u.jn.cons = n.toNat ∧ u.jn.prod = s.jn.prod ∧ u.mem = s.mem) ∧
      (¬(n.toNat % 64 = 0 ∧ s.jn.cons ≤ n.toNat ∧ n.toNat ≤ s.jn.prod) → exec (.jrcons n) s = .next s)))

/-- Checkpoints and the start of the chain (R413, R417-R422): JCTL.CKPT and the timer make a checkpoint with their trigger
fall due, merged with one that waits, and under the inhibit deferred; its digest goes to engine 32, and its signature,
once it comes, to the entry and the head slots; head and signature parts are written into their slots, after the row of
a trim rewrite that is being written, and a part that reads back wrong is written again elsewhere; JCTL.EN with a valid
ring enables the journal, and the chain begins with GENESIS where no head slot is valid, or where the latest is a
zeroisation marker, and else with RESUME. -/
def Obligations.JournalCheckpoints : Prop :=
  ∀ s : State,
    let held (u : State) (k : JKind) : Prop := ∃ i ∈ u.jn.unit ++ u.jn.waiting, i.kind = k
    let open_ (v : State) : Prop := v.jn.chainOn = true ∧ v.jn.fault = false
    let falls (v : State) (trig : BitVec 8) (u : State) : Prop :=
      (v.pw.minh = false → ((v.jn.unit ++ v.jn.waiting).any fun i => i.kind.isCk) = false → held u (.checkpoint trig)) ∧
      (v.pw.minh = false → ∀ t, held v (.checkpoint t) → held u (.checkpoint (if trig < t then trig else t))) ∧
      (v.pw.minh = true → u.jn.defer = satAdd v.jn.defer 1 ∧ u.jn.unit = v.jn.unit)
    (∃ u, exec .jctlCkpt s = .next u ∧ (open_ s → falls s 3 u) ∧ (¬open_ s → u = s)) ∧
    (s.jn.run = true → 0 < s.jn.sinceCk →
      let w := settle (max s.now (s.jn.lastCk + (if s.lean then 100000000 else 200000000))) s
      ∃ u, exec .checkpointTimer s = .next u ∧ u.now = w.now ∧ (open_ w → falls w 1 u)) ∧
    (∀ k, (s.jn.checks.find? fun k => !k.submitted) = some k →
      let w := settle (max s.now (2 * k.digestDue)) s
      ∃ u, exec .checkpointDigest s = .next u ∧
      (∃ r, u.engines[(32 : EngineId)].accepted = w.engines[(32 : EngineId)].accepted ++ [r] ∧
        r.source = .journal k.job.seqNo (sha384Bytes k.body)) ∧
      (∀ x ∈ u.jn.checks, x.job.seqNo = k.job.seqNo → x.submitted = true)) ∧
    (∀ k r sg, s.jn.checks = k :: r → k.sig = some sg → ∃ u, exec .checkpointSignatureWrite s = .next u ∧
      u.jn.checks = r ∧ u.jn.sgseq = k.job.seqNo ∧ (∀ o ∈ u.jn.outs, o.seqNo = k.job.seqNo → o.unsigned = false) ∧
      (sg ≠ [] → s.pw.minh = false → u.jn.parts = s.jn.parts ++ [{ k.job with kind := .sig, sig := sg }])) ∧
    (∀ p r n, s.jn.parts = p :: r → s.jn.partWrite = none → s.pw.minh = false →
      let row := nsToCc s 5000
      let first := if s.pw.trimBusy then s.pw.trimStart + row * cdiv (s.now - s.pw.trimStart) row else s.now
      let starts (i : Instr) : Prop := ∃ u w, exec i s = .next u ∧ u.jn.parts = r ∧ u.jn.partWrite = some w ∧ w.job = p ∧
        w.slot = n ∧ w.stop = first + row ∧ u.headSlots = s.headSlots
      (p.kind ≠ .sig → nextSlot s 0 = some n → starts .headPartWrite) ∧
      (p.kind = .sig → slotOf s p.seqNo = some n → starts .signaturePartWrite)) ∧
    (∀ w, s.jn.partWrite = some w →
      let v := settle (max s.now w.stop) s
      let at_ := if w.job.kind = .sig then 80 else 0
      let i (ok : Bool) : Instr := if w.job.kind = .sig then .signaturePartWriteEnd ok else .headPartWriteEnd ok
      (∃ u, exec (i true) s = .next u ∧ u.jn.partWrite = none ∧ slotBytes u w.slot = padTo 256 (overlay (slotBytes v w.slot) at_ w.bytes) ∧
        (∀ n, n ≠ w.slot → slotBytes u n = slotBytes v n) ∧ (w.job.kind = .head → u.jn.defer = 0)) ∧
      (∃ u, exec (i false) s = .next u ∧ u.jn.partWrite = none ∧ u.jn.bad = satAdd v.jn.bad 1 ∧
        u.jn.skipped = w.slot :: v.jn.skipped ∧ w.job ∈ u.jn.parts)) ∧
    (s.jn.en = false → ringValid s.jn = true → s.pw.bootSel ≠ 2 → ∃ u, exec .jctlEn s = .next u ∧ u.jn.en = true) ∧
    (s.jn.en = true ∨ ringValid s.jn = false ∨ s.pw.bootSel = 2 → exec .jctlEn s = .next s) ∧
    (∀ t, (armStart s).jn.startAt = some t →
      let w := settle (max s.now t) (armStart s)
      ∃ u, exec .chainStart s = .next u ∧ u.jn.startAt = none ∧ u.jn.chainOn = true ∧ u.now = w.now ∧
        (latestSlot w = none → held u (.genesis 0)) ∧
        (∀ n b, latestSlot w = some (n, b) →
          (b.getD 74 0 = 1 → held u (.genesis 2)) ∧
          (b.getD 74 0 ≠ 1 → held u (.resume n (BitVec.ofNat 64 (slotNum b 4 8)) (sigValid b) (BitVec.ofNat 64 (slotNum b 12 8))
            (slice b 20 32))))) ∧
    ((∀ p ∈ s.headSlots, slotValid p.2 = false) → latestSlot s = none)

/-! ## Movers and attached memory -/

/-- The mover channels (R449-R459): MSUB that passes its checks is taken after its issue cycle, on a pair once the checker
has compared it, and answers 2, 1 or 0, and with 0 the descriptor waits; the chained descriptor, or the oldest that
waits, starts with the read of its 64 bytes, and is checked when they have come. A burst that the key rule refuses on
either side ends it with KEY_MISMATCH; else it is read block by block, in attached memory at once, or from the host by a
request; once it has come it is written block by block, in attached memory, or to the host. The descriptor completes
with STATUS and MOVED in its own bytes and no others, counted in DONE; its NEXT is run, or gives BAD_DESC. Clearing EN
completes what waits with RESET, and what runs. -/
def Obligations.MoverChannels : Prop :=
  (∀ (s : State) (c : CoreId) (cond : Cond) (gd ga : Reg), clear s c cond {} = true → (s.core c).legacy = false →
    let o := operands s c
    let k := operandCore s c
    let t := issueCycle s c
    let ch := (k.reg gd).val.toNat % 64
    descFault (k.reg ga) 0 = none → exec (.msub c cond gd ga) s = .next (issued s c 1 fun u =>
      if paired o c then holdAct c t gd (.mover (BitVec.ofNat 6 ch) (k.reg ga) [] k.atBase) u
      else
        let n := (takeSeq c u).1
        schedule c t 2 (.msub ch (k.reg ga) k.atBase (c, n) [⟨c, t, gd, n⟩]) (takeSeq c u).2)) ∧
  (∀ (s : State) (t : Nat) (ch : ChannelId) (c : CoreId) (ga : TWord) (base : Bool) (after : CoreId × Nat) (dests : List ResultTo),
    let x := s.mov.ch[ch]
    let answers (r : Word) (v : State) : Prop :=
      performTimed { cycle := t, rank := 2, core := c, what := .msub ch.val ga base after dests } s =
        dests.foldl (fun z d => pushAt d.core (d.cycle + 2) d.seq (.reg d.reg (TWord.plain r)) z) v
    (x.en = false ∨ (x.baseOnly = true ∧ base = false) → answers 2 s) ∧
    (x.en = true → (x.baseOnly = false ∨ base = true) →
      (4 ≤ channelOccupied x (t / 2) → answers 1 s) ∧
      (channelOccupied x (t / 2) < 4 → answers 0 (modCh ch (fun x =>
        { x with queue := x.queue ++ [{ ga := ga, base := base, entry := fcFrom (t + 3), after := some after }] }) s)))) ∧
  (∀ (s : State) (ch : ChannelId),
    let v := settlePort s
    let x := s.mov.ch[ch]
    let send (f at_ job off : Nat) (after : Option (CoreId × Nat)) (store : Bool) (w : BgWhat) (u : State) : State :=
      schedule 0 (2 * f) 0 (.send ⟨ch.val, at_, f, after, job, off, w⟩ none store) u
    let runs (u : State) (m : MovRun) : Prop := u.mov.ch[ch].run = some m
    (∀ f r off y, channelStart v.mov.ch[ch] = some f →
      let w := settle (max v.now (2 * f)) v
      pickDescriptor w.mov.ch[ch] = some (r, off, y) → exec (.moverDescriptorStart ch) s = .next
        (send f ((capAddr r.ga.val).toNat + off) 0 0 r.after false (.read 64)
          (modCh ch (fun _ => { y with run := some (unreadDescriptor r off f) }) w))) ∧
    (∀ p, x.chain = some p → pickDescriptor x = some (p.1, p.2, { x with chain := none })) ∧
    (∀ r q, x.chain = none → x.queue = r :: q → pickDescriptor x = some (r, 0, { x with queue := q })) ∧
    (∀ m d f, runs s m → m.known = false → doneOf s ch.val 3 = [] → doneOf s ch.val 0 = [d] →
      let y := parseDescriptor m.req m.off m.start d.bytes (d.tags.map fun w => w - ((capAddr m.req.ga.val).toNat + m.off))
      let st := if d.bad.isSome then mvEcc else checkMover x y d.bytes
      runs (moverGot ch f s) { y with status := if m.status = mvOk then st else m.status }) ∧
    (let z := moverReady ch s
     let w := settle (evenFrom z.now) z
     ∀ m reply, runs z m → m.known = true → m.cur = none → m.status = mvOk → m.moved < m.len →
      w.eccBad = [] → w.eccSoft = [] → w.keyBad = [] → w.keySoft = [] → (∀ k : StackId, w.mov.hbmStacks[k].phyFailed = false) →
      let n := burstBytes m
      let a := sideAddr m.srck m.src m.haddr m.moved
      let d := sideAddr m.dstk m.dst m.haddr m.moved
      let b : MovBurst := ⟨a, d, n, 0, false⟩
      let asked := if m.asked then w
        else modRun ch (fun r => { r with asked := true }) (hostSend (.read w.mov.ch[ch].func.toNat a n) w)
      let answered := modRun ch (fun r => { r with asked := false }) asked
      let goes (u : State) : Prop := exec (.moverBurst ch reply) s = .next u
      ((sideKey w m.srck m.src false a n).isSome ∨ (sideKey w m.dstk m.dst true d n).isSome → goes (stopMover ch mvKey w)) ∧
      (sideKey w m.srck m.src false a n = none → sideKey w m.dstk m.dst true d n = none →
        (m.srck ≠ 1 → m.srck ≠ 2 → goes ((blockParts a n).foldl
          (fun u p => send (fcFrom w.now) p.1 1 (p.1 - a) none false (.read p.2) u)
          (modRun ch (fun r => { r with cur := some { b with parts := (blockParts a n).length } }) w))) ∧
        (m.srck = 1 → goes (moverPut ch m b (w.bytes a n) (taggedWords w a n) (w.now / 2) (markFrames w a n false))) ∧
        (m.srck = 2 → ∀ bs, reply = .data bs → bs.length = n → goes (moverPut ch m b bs [] (w.now / 2) answered)) ∧
        (m.srck = 2 → reply = .error → goes (stopMover ch mvHost answered)) ∧
        (m.srck = 2 → reply = .none ∨ reply = .taken ∨ (∃ bs, reply = .data bs ∧ bs.length ≠ n) → goes asked))) ∧
    (∀ m b f, runs s m → m.known = true → m.cur = some b → doneOf s ch.val 3 = [] →
      let ds := doneOf s ch.val (if b.writing then 2 else 1)
      b.parts ≤ ds.length →
      (b.writing = true → runs (moverGot ch f s) { m with moved := m.moved + b.len, cur := none }) ∧
      (b.writing = false → (ds.any fun d => d.bad.isSome) = true → runs (moverGot ch f s) { m with status := mvEcc, cur := none }) ∧
      (b.writing = false → (ds.any fun d => d.bad.isSome) = false →
        moverGot ch f s = moverPut ch m b (gathered ds b.len) (ds.flatMap fun d => d.tags) f (dropDone ch.val 1 s))) ∧
    (∀ m b bs tagged f, runs s m → bs.length = b.len →
      let u := moverPut ch m b bs tagged f s
      let tags := carriedTags m b bs tagged
      (m.dstk = 2 → u.link.out = s.link.out ++ [.write x.func.toNat b.dst bs] ∧ u.mem = s.mem ∧
        runs u { m with moved := m.moved + b.len, cur := none }) ∧
      (m.dstk = 1 → attachedBad s true b.dst b.len = none → Memory.wf s.mem = true → attBase ≤ b.dst → b.dst + b.len ≤ attUsable →
        runs u { m with moved := m.moved + b.len, cur := none } ∧ (∀ i, i < b.len → memGet u.mem (b.dst + i) = bs.getD i 0) ∧
        ∀ y, (y < b.dst ∨ b.dst + b.len ≤ y) → y < attUsable → memGet u.mem y = memGet s.mem y) ∧
      (m.dstk ≠ 1 → m.dstk ≠ 2 → u = (blockParts b.dst b.len).foldl (fun u p =>
        send (f + 1) p.1 2 (p.1 - b.dst) none true (.write ((slice bs (p.1 - b.dst) p.2).map some)
          (tags.filter fun w => decide (p.1 ≤ w) && decide (w < p.1 + p.2))) u)
        (modRun ch (fun r => { r with cur := some { b with parts := (blockParts b.dst b.len).length, writing := true } }) s))) ∧
    (let z := moverReady ch s
     ∀ m, runs z m → m.known = true → m.cur = none → (m.status ≠ mvOk ∨ m.len ≤ m.moved) →
      let chains := m.next ≠ 0 ∧ m.status ≠ mvReset
      let bad := (descFault m.req.ga m.next).isSome = true
      let st := if chains ∧ bad then mvBadDesc else m.status
      ∃ y, exec (.moverCompletion ch) s = .next (countDone ch st (writeStatus m.req m.off m.moved st y)) ∧
        y.mov.ch[ch].run = none ∧ y.mov.ch[ch].chain = (if chains ∧ ¬bad then some (m.req, m.next) else none)) ∧
    (∀ (r : MovReq) (off moved : Nat) (st : BitVec 16),
      let a := (capAddr r.ga.val).toNat + off
      let w := settle (s.now / 2 * 2 + 1) s
      let u := writeStatus r off moved st s
      inGlobal a 64 = true → a % 64 = 0 → Memory.wf w.mem = true → w.eccBad = [] →
      (∀ i, i < 2 → memGet u.mem (a + 0x38 + i) = (leBytes 2 st.toNat).getD i 0) ∧
      (∀ i, i < 4 → memGet u.mem (a + 0x3C + i) = (leBytes 4 moved).getD i 0) ∧
      ∀ y, y < a + 0x38 ∨ a + 0x40 ≤ y ∨ y = a + 0x3A ∨ y = a + 0x3B → memGet u.mem y = memGet w.mem y) ∧
    (let x := v.mov.ch[ch]
     let at_ (r : MovReq) (off : Nat) : Nat := (capAddr r.ga.val).toNat + off + 0x38
     let waiting := (x.chain.toList.map fun p => at_ p.1 p.2) ++ x.queue.map fun r => at_ r 0
     (x.en = true → exec (.mchcfgEnClear ch) s = .next (waiting.foldl
        (fun u a => send (fcFrom v.now) a 3 0 none true (.write (statusImage 0 mvReset) []) u)
        (modCh ch (fun x => { x with en := false, queue := [], chain := none, run := x.run.map fun m => { m with status := mvReset } })
          v))) ∧
     (x.en = false → exec (.mchcfgEnClear ch) s = .next v)) ∧
    (∀ f, doneOf s ch.val 3 ≠ [] → x.run = none →
      moverGot ch f s = countDone ch mvReset (raise (evNo (224 + ch.val)) (2 * f) (dropDone ch.val 3 s))))

/-! ## XOP routines -/

/-- XOP that is legal, with no vector load or store queued, drains the store buffer and starts its routine at its entry, u
registers, micro-flags and LINK clear (R349, R354, R365); the micro-operations that compute write their results and,
where asked, their micro-flags, and go on to the next word (R352-R358). -/
def Obligations.MicroOperations : Prop :=
  (∀ (s : State) (c : CoreId) (cond : Cond) (n : BitVec 6) (gd ga gb : Reg), clear s c cond { banned := true } = true →
    (xopent s c n).getLsbD 31 = true → vecMemQueued (operandCore s c).ms (issueCycle s c) = false →
    ∃ m, exec (.xop c cond n gd ga gb) s = .next ((drainAll c (issueCycle s c) (operands s c)).modSeq c fun q =>
        { q with hold := none, micro := some m }) ∧ m.upc = (xopent (operands s c) c n).setWidth 15 ∧
      m.start = issueCycle s c ∧ m.steps = 0 ∧ m.u = Vector.replicate 16 0 ∧ m.flags = 0 ∧ m.linkv = false ∧ m.loads = [] ∧
      m.gd = gd ∧ m.ga = ga ∧ m.gb = gb ∧ m.watch = 0 ∧ m.caused = false ∧ m.arith = (xopent (operands s c) c n).getLsbD 30) ∧
  (∀ (s : State) (c : CoreId) (m : Micro) (d a b : MOpnd) (w : Wf) (f : Bool) (imm : BitVec 14) (sr : BitVec 6),
    stepping s c m → opndOk d = true → opndOk a = true → opndOk b = true →
    let r := stepMicro s m
    let k := (stepState s c m).core c
    let n := widthOf w
    let va := (opndRead k r a).val
    let vb := (opndRead k r b).val
    let x := lowBits n va
    let y := lowBits n vb
    let carry : Nat := if r.flags.getLsbD 2 then 1 else 0
    let alu (i : Instr) (o : IntOut) : Prop :=
      exec i s = .next (stepped s c m d (some (signFill n o.d)) (if f then o.mask else 0) o.vals)
    let whole (i : Instr) (v : Word) (mask vals : BitVec 6) : Prop := exec i s = .next (stepped s c m d (some v) mask vals)
    (w ≠ 3 →
      alu (.microAdd c d a b w f) (addOut n x y 0) ∧ alu (.microSub c d a b w f) (subOut n x y 0) ∧
      alu (.microAdc c d a b w f) (addOut n x y carry) ∧ alu (.microSbc c d a b w f) (subOut n x y (1 - carry)) ∧
      alu (.microAnd c d a b w f) (logicOut n (x &&& y)) ∧ alu (.microOr c d a b w f) (logicOut n (x ||| y)) ∧
      alu (.microXor c d a b w f) (logicOut n (x ^^^ y)) ∧ alu (.microAndn c d a b w f) (logicOut n (x &&& (2 ^ n - 1 - y))) ∧
      alu (.microSll c d a b w f) (shiftOut .sll n x (y % 256)) ∧ alu (.microSrl c d a b w f) (shiftOut .srl n x (y % 256)) ∧
      alu (.microSra c d a b w f) (shiftOut .sra n x (y % 256)) ∧ alu (.microRol c d a b w f) (shiftOut .rol n x (y % 256)) ∧
      alu (.microRor c d a b w f) (shiftOut .ror n x (y % 256)) ∧ alu (.microClz c d a w f) (countOut (leadingZeros n x)) ∧
      alu (.microPopc c d a w f) (countOut (popCount n x))) ∧
    (let i := (imm.signExtend 128).toNat
     let big (o : IntOut) (j : Instr) : Prop := whole j (BitVec.ofNat 128 o.d) (if f then o.mask else 0) o.vals
     big (addOut 128 va.toNat i 0) (.microAddi c d a f imm) ∧ big (logicOut 128 (va.toNat &&& i)) (.microAndi c d a f imm) ∧
     big (logicOut 128 (va.toNat ||| i)) (.microOri c d a f imm)) ∧
    whole (.lit c d imm) (imm.signExtend 128) 0 0 ∧
    (let amt := imm.toNat % 128
     (imm.extractLsb' 7 2 = 0 → whole (.shi c d a imm) (va <<< amt) 0 0) ∧
     (imm.extractLsb' 7 2 = 1 → whole (.shi c d a imm) (va >>> amt) 0 0) ∧
     (imm.extractLsb' 7 2 = 2 → whole (.shi c d a imm) (va.sshiftRight amt) 0 0) ∧
     (imm.extractLsb' 7 2 = 3 → whole (.shi c d a imm) (va.rotateLeft amt) 0 0)) ∧
    exec (.dval c a b) s = .next (stepped s c m 0x10 none fDX (flag fDX ((decRead va).isNone || (decRead vb).isNone))) ∧
    (∀ p q, decRead va = some p → decRead vb = some q → ∀ neg : Bool,
      let z := p.val + (if neg then -q.val else q.val)
      let minus := (if z = 0 then p.minus && (neg != q.minus) else decide (z < 0)) &&
        (k.regs.dctl.getLsbD 8 || decide (z.natAbs % 10 ^ 31 ≠ 0))
      ∃ v, decRead v = some { mag := z.natAbs % 10 ^ 31, minus := minus } ∧
        whole (if neg then .dsubx c d a b else .daddx c d a b) v (fN ||| fZ ||| fDV)
          (flag fN (decide (z < 0 ∧ z.natAbs % 10 ^ 31 ≠ 0)) ||| flag fZ (z.natAbs % 10 ^ 31 == 0) |||
            flag fDV (decide (10 ^ 31 ≤ z.natAbs)))) ∧
    (decRead va = none ∨ decRead vb = none → exec (.daddx c d a b) s = .next (stepped s c m d none fDX fDX) ∧
      exec (.dsubx c d a b) s = .next (stepped s c m d none fDX fDX)) ∧
    (∀ p, decRead va = some p →
      (∃ v, decRead v = some { p with mag := p.mag * 10 % 10 ^ 31 } ∧
        whole (.dsl1 c d a) v fDV (flag fDV (decide (10 ^ 31 ≤ p.mag * 10)))) ∧
      (∃ v, decRead v = some { p with mag := p.mag / 10 } ∧ whole (.dsr1 c d a) v fZ (flag fZ (p.mag / 10 == 0))) ∧
      (∃ v, decRead v = some { p with mag := p.mag * (vb.toNat % 16) % 10 ^ 31 } ∧
        whole (.dmd c d a b) v (fDV ||| fDX)
          (flag fDV (decide (10 ^ 31 ≤ p.mag * (vb.toNat % 16))) ||| flag fDX (decide (9 < vb.toNat % 16)))) ∧
      (let minus := (p.minus != vb.getLsbD 0) && (k.regs.dctl.getLsbD 8 || decide (p.mag ≠ 0))
       ∃ v, decRead v = some { mag := p.mag, minus := minus } ∧
         whole (.dsgn c d a b) v (fN ||| fZ) (flag fN (minus && decide (p.mag ≠ 0)) ||| flag fZ (p.mag == 0))) ∧
      (∀ q, decRead vb = some q → exec (.dcmpm c a b) s = .next (stepped s c m 0x10 none 7
        (flag fN (decide (p.mag < q.mag)) ||| flag fZ (p.mag == q.mag) ||| flag fC (decide (q.mag ≤ p.mag)))))) ∧
    ((∃ v z, whole (.dsl1 c d a) v fDV z) ∧ (∃ v z, whole (.dsr1 c d a) v fZ z) ∧ (∃ v z, whole (.dmd c d a b) v (fDV ||| fDX) z) ∧
     (∃ v z, whole (.dsgn c d a b) v (fN ||| fZ) z) ∧ ∃ z, exec (.dcmpm c a b) s = .next (stepped s c m 0x10 none 7 z)) ∧
    (let i := 8 * (vb.toNat % 16)
     let j := 4 * (vb.toNat % 32)
     let vd := (opndRead k r d).val
     whole (.getb c d a b) (BitVec.ofNat 128 (va.toNat / 2 ^ i % 256)) fZ (flag fZ (va.toNat / 2 ^ i % 256 == 0)) ∧
     whole (.getn c d a b) (BitVec.ofNat 128 (va.toNat / 2 ^ j % 16)) fZ (flag fZ (va.toNat / 2 ^ j % 16 == 0)) ∧
     (∃ v : Word, (∀ x < 128, v.getLsbD x = if i ≤ x ∧ x < i + 8 then va.getLsbD (x - i) else vd.getLsbD x) ∧
       whole (.putb c d a b) v 0 0) ∧
     (∃ v : Word, (∀ x < 128, v.getLsbD x = if j ≤ x ∧ x < j + 4 then va.getLsbD (x - j) else vd.getLsbD x) ∧
       whole (.putn c d a b) v 0 0)) ∧
    (sregOk sr = true →
      let f := stepState s c m
      let v := (sysRead f c sr).val
      let p := if sr = 0x0C ∨ sr = 0x0D then sharedValue c v f else (v, f)
      let w := opndWrite c (stepTime s m) r d p.1 p.2
      exec (.sreg c d sr) s = .next (goesOn c (w.1.after (w.1.upc + 1)) w.2) ∧ (paired f c = false → p = (v, f))))

/-- The sequencing of a routine, its memory accesses and its causes (R357-R363): microbranches, the loop, the micro-
subroutine, flags, checks, loads that become visible four steps later, stores, the pointer advance, the arithmetic
causes, interruption points, the end of the routine and the watchdog. -/
def Obligations.MicroSequencing : Prop :=
  ∀ (s : State) (c : CoreId) (m : Micro),
  (stepping s c m →
    let r := stepMicro s m
    let f := stepState s c m
    let k := f.core c
    let t := stepTime s m
    let on (i : Instr) (x : Micro) (u : State) : Prop := exec i s = .next (goesOn c x u)
    let traps (i : Instr) (q : Trap) : Prop := exec i s = .next (trapAt c (t + 1) q (f.modSeq c fun q => { q with micro := none }))
    (∀ cond target, on (.microBr c cond target)
      (r.after (if condHolds cond (r.flags.setWidth 32) then target else r.upc + 1)) f) ∧
    (∀ (u : MOpnd) (h : u.toNat < 16) target,
      let n : BitVec 32 := r.u[u.toNat].setWidth 32 - 1
      let left := r.loads.filter fun l => !(decide (l.1 ≤ r.steps + 1) && l.2.1.val == u.toNat)
      on (.loop c u target)
        ({ r with u := r.u.set u.toNat (n.setWidth 128), loads := left }.after (if n = 0 then r.upc + 1 else target)) f) ∧
    (∀ target, on (.call c target) ({ r with link := r.upc + 1, linkv := true }.after target) f) ∧
    (r.linkv = true → on (.microRet c) ({ r with linkv := false }.after r.link) f) ∧
    (∀ mask, on (.setf c mask) (r.after (r.upc + 1)) (pushFlags c (t + 1) mask.reverse r.flags f)) ∧
    (∀ d cc o sz, opndOk d = true → gCoded cc = true → opndOk o = true → sz.toNat ≤ 4 →
      let a := microAuth f c r cc o
      let n := 2 ^ sz.toNat
      (strFault f c a n true false false = none →
        (d.toNat < 16 → on (.mld c d cc o sz) ({ r with loads := r.loads ++
          [(r.steps + 4, opndU d, BitVec.ofNat 128 (ofLe (f.bytes (strAt c a.ea) n)))] }.after (r.upc + 1)) f) ∧
        (16 ≤ d.toNat → on (.mld c d cc o sz) (r.after (r.upc + 1))
          (pushReg c (t + 4) (opndReg r d) (BitVec.ofNat 128 (ofLe (f.bytes (strAt c a.ea) n))) f))) ∧
      (∀ q, strFault f c a n true false false = some q → traps (.mld c d cc o sz) q) ∧
      (strFault f c a n false true false = none → on (.mst c d cc o sz) (r.after (r.upc + 1))
        (schedule c t 1 (.put (strAt c a.ea) (leBytes n (opndRead k r d).val.toNat) none) f)) ∧
      (∀ q, strFault f c a n false true false = some q → traps (.mst c d cc o sz) q)) ∧
    (∀ d cc o perm, opndOk d = true → gCoded cc = true → opndOk o = true → perm.getLsbD 0 = false →
      let x := strFault f c (microAuth f c r cc o) (capAddr (opndRead k r d).val).toNat (perm.getLsbD 2) (perm.getLsbD 1) false
      (x = none → on (.mchk c d cc o perm) (r.after (r.upc + 1)) f) ∧ (∀ q, x = some q → traps (.mchk c d cc o perm) q)) ∧
    (∀ d a b, gCoded d = true → opndOk a = true → opndOk b = true →
      let v := opndRead k r a
      let by_ := capAddr (opndRead k r b).val
      let gives (x : TWord) : Prop := on (.adv c d a b) (r.after (r.upc + 1)) (pushCap c (t + 1) (opndReg r d) x f)
      (k.legacy = false → isSealed v = false → gives (moveAddr v (capAddr v.val + by_))) ∧
      (k.legacy = false → isSealed v = true → traps (.adv c d a b) (capTrap 0x07 0 (opndReg r a).val)) ∧
      (k.legacy = true → gives (advancePtr true v by_.toNat))) ∧
    (∀ cause, 0x10 ≤ cause.toNat → cause.toNat ≤ 0x14 →
      (trapEnabled k cause = true → r.caused = false →
        on (.trapArithmetic c cause) ({ r with caused := true }.after (r.upc + 1)) (recordCause c cause f)) ∧
      (trapEnabled k cause = false ∨ r.caused = true → on (.trapArithmetic c cause) (r.after (r.upc + 1)) f)) ∧
    (∀ dn, wouldAccept c (t + 1) f = false → on (.yield c dn) { r.after (r.upc + 1) with watch := 1 } f) ∧
    (wouldAccept c (t + 1) f = true →
      exec (.yield c false) s = .next (f.modSeq c fun q => { q with micro := none, slot := q.slot + 1, nextIssue := t + 1 }) ∧
      ∃ u, exec (.yield c true) s = .next u ∧ (u.core c).seq.micro = none ∧ (u.core c).seq.slot = k.seq.slot + 1 ∧
        (u.core c).seq.nextIssue = t + 1 ∧ u.mem = f.mem) ∧
    (∃ u, exec (.exit c) s = .next u ∧ (u.core c).seq.micro = none ∧ (u.core c).seq.slot = k.seq.slot + 1 ∧
      (u.core c).seq.nextIssue = t + 1 + (if r.arith && stPA k.x.status then 3 else 0) ∧ u.mem = f.mem) ∧
    (let q : Trap := { code := 0x01, xaddr := k.pc, xinfo := r.word.setWidth 64 }
     traps (.trapIllegal c) q ∧ (r.linkv = false → traps (.microRet c) q))) ∧
  ((s.core c).seq.micro = some m → runs s c = true → 4096 ≤ m.watch →
    let f := stepState s c m
    let v := f.modSeq c fun q => { q with micro := none }
    (baseDue c (stepTime s m) v = none → exec (.microWatchdog c) s = .next (enterBase c (stepTime s m) 0x47
      ((m.upc.setWidth 64) <<< 32) (f.core c).pc false (f.core c).pc v)) ∧
    (∀ u, baseDue c (stepTime s m) v = some u → exec (.microWatchdog c) s = .next u))

/-! ## The XOP loader -/

/-- A load of the XOP set (R373-R376): GO ends with RESULT 1 or 2, or begins to read the manifest block by block; once it
has come the load ends with the RESULT of the first check that fails, or waits for its signature; the result of the
signature and the remaining checks end it or clear XOPENT of the target cores; in each fabric cycle each target core
that runs no routine takes the next word that it lacks; the installation writes XOPENT and REV and ends the load. -/
def Obligations.XopLoads : Prop :=
  ∀ s : State,
    let l := s.cfg.loader
    let n := l.len.toNat
    let a := (capAddr l.src.val).toNat
    let ended (r : BitVec 8) (u : State) : Prop := u.cfg.loader.busy = false ∧
      u.cfg.loader.result = r ∧ u.cfg.loader.job = none ∧ u.cfg.xopent = s.cfg.xopent ∧ u.mem = s.mem
    let ends (i : Instr) (r : BitVec 8) : Prop := ∃ u, exec i s = .next u ∧ ended r u
    (l.busy = true → exec .xopLoaderGo s = .next s) ∧
    (l.busy = false →
      (manSource l.src n = false → ends .xopLoaderGo 1) ∧ (manSource l.src n = true → n = 0 → ends .xopLoaderGo 2) ∧
      (manSource l.src n = true → n ≠ 0 →
        let f := fcFrom (s.now + 1)
        let j : LoadJob := ⟨[], 3, a, n, f, none, [], 0⟩
        exec .xopLoaderGo s = .next ((blockParts a n).zipIdx.foldl
          (fun u p => schedule 0 (2 * (f + 4 * p.2)) 0
            (.send ⟨114, p.1.1, f + 4 * p.2, none, 0, p.1.1 - a, .read p.1.2⟩ none false) u)
          { s with cfg := { s.cfg with loader := { l with busy := true, job := some j } } }))) ∧
    (∀ j f, l.job = some j → j.stage = 3 → blocksOf j.addr j.len ≤ (doneOf s 114 0).length →
      let mf := gathered (doneOf s 114 0) j.len
      let u := loaderGot f s
      (manShape mf = false → ended 2 u) ∧
      (manShape mf = true → sha256Bytes (manKey mf) ≠ keyHash l → ended 3 u) ∧
      (manShape mf = true → sha256Bytes (manKey mf) = keyHash l → enginePresent s l.eng.toNat = false → ended 4 u) ∧
      (manShape mf = true → sha256Bytes (manKey mf) = keyHash l → enginePresent s l.eng.toNat = true →
        u.cfg.loader.job = some { j with manifest := mf, stage := 0 } ∧
        ∃ r ∈ u.engines[(⟨l.eng.toNat, by omega⟩ : EngineId)].accepted,
          r.source = .loader (sha384Bytes (manBody mf)) (manSig mf) (manKey mf))) ∧
    (∀ j ok, l.job = some j → j.stage = 0 → j.verdict = some ok →
      (ok = false → ends .xopLoadVerifyResult 4) ∧
      (ok = true → manSpans j.manifest = false → ends .xopLoadVerifyResult 5) ∧
      (ok = true → manSpans j.manifest = true → manImage j.manifest = false → ends .xopLoadVerifyResult 6) ∧
      (ok = true → manSpans j.manifest = true → manImage j.manifest = true → manCores s = false → ends .xopLoadVerifyResult 7) ∧
      (ok = true → manSpans j.manifest = true → manImage j.manifest = true → manCores s = true → ∃ u j',
        exec .xopLoadVerifyResult s = .next u ∧ u.cfg.loader.job = some j' ∧ j'.manifest = j.manifest ∧ j'.stage = 1 ∧
        (∀ c : CoreId, u.cfg.xopent[c] = if c ∈ loadTargets s then Vector.replicate 64 0 else s.cfg.xopent[c]))) ∧
    (∀ j, l.job = some j → j.stage = 1 → manWords j.manifest ≤ 3072 →
      let w := settle (max s.now j.due) s
      let total := manWords j.manifest
      let takes (c : CoreId) : Bool := (loadTargets w).contains c && decide (wordsAt j c < total) && !inRoutine w c
      let at_ (c : CoreId) : Nat := csBase c + 0x1000 + 4 * wordsAt j c
      ∃ u j', exec .xopWordWrite s = .next u ∧ u.cfg.loader.job = some j' ∧ j'.manifest = j.manifest ∧
        (∀ c, wordsAt j' c = wordsAt j c + if takes c then 1 else 0) ∧
        j'.stage = (if ∀ c ∈ loadTargets w, total ≤ wordsAt j' c then 2 else 1) ∧
        (Memory.wf w.mem = true → ∀ c, takes c = true → u.bytes (at_ c) 4 = leBytes 4 (manWord j.manifest (wordsAt j c))) ∧
        (∀ x, (∀ c, takes c = true → x < at_ c ∨ at_ c + 4 ≤ x) → memGet u.mem x = memGet w.mem x)) ∧
    (∀ j, l.job = some j → j.stage = 2 →
      let w := settle (max s.now j.due) s
      ∃ u, exec .xopLoadInstall s = .next u ∧ u.cfg.loader.busy = false ∧
      u.cfg.loader.result = 0 ∧ u.cfg.loader.job = none ∧ u.cfg.loader.rev = BitVec.ofNat 16 (manField j.manifest 0xA 2) ∧
      (∀ c : CoreId, u.cfg.xopent[c] =
        if c ∈ loadTargets w then Vector.ofFn (fun i => manEntry j.manifest i.val) else w.cfg.xopent[c]) ∧ u.mem = w.mem)

/-- What the stacks report by themselves (R467, R468): a change of the refresh rate, the end of a patrol pass, a PHY error
after which the stack's accesses fail, and what patrol scrub meets after the upsets that come with it: a single-bit
error is counted and corrected, an uncorrectable one is recorded with its unit. Scrub (R262-R270): every interval each
scrubber makes its next row due; SCRUB_ROW, after the upsets that come with it, scrubs the oldest row due in the first
phase B in which the scrubber is granted: the next row follows, a word with a single-bit error is counted and corrected,
and one with an uncorrectable error is recorded; a scrubber that waits too long is starved; ECCADDR is released. -/
def Obligations.ReportsAndScrub : Prop :=
  (∀ (s : State) (k : StackId) (hot : Bool) (off : BitVec 48) (l : List Upset),
     let v := l.foldl (fun s u => upset u s) s
     let unit := attBase + (off.toNat / 256 * 4 + k.val) * 256 + off.toNat % 256 / 32 * 32
     let clean (u : State) : State := { u with eccSoft := u.eccSoft.filter fun w => w ≠ unit }
     (s.mov.hbmStacks[k].hot ≠ hot → ∃ u, exec (.hbmRefreshRateChange k hot) s = .next (pulse (355 + 8 * k.val) u) ∧
       u = { s with mov := u.mov } ∧ u.mov.hbmStacks = s.mov.hbmStacks.set k { s.mov.hbmStacks[k] with hot := hot }) ∧
     (s.mov.hbmStacks[k].hot = hot → exec (.hbmRefreshRateChange k hot) s = .next s) ∧
     (s.mov.hbmPass ≠ 0 → exec (.hbmPatrolPassComplete k) s = .next (pulse (354 + 8 * k.val) s)) ∧
     (s.mov.hbmPass = 0 → exec (.hbmPatrolPassComplete k) s = .next s ∧ exec (.patrolScrub k off l) s = .next v) ∧
     (s.mov.hbmPass ≠ 0 → attEnd ≤ unit → exec (.patrolScrub k off l) s = .next v) ∧
     (s.mov.hbmPass ≠ 0 → unit < attEnd →
       (eccHit v unit 32 = none → failedUnit v unit 32 = none → exec (.patrolScrub k off l) s = .next (clean (softRead unit 32 v))) ∧
       (eccHit v unit 32 = none → failedUnit v unit 32 = none → v.eccSoft = [unit] → ∃ u, exec (.patrolScrub k off l) s = .next u ∧
         u.eccSoft = [] ∧ u.mov.hbmStacks[k].cecnt = satAdd v.mov.hbmStacks[k].cecnt 1 ∧ u.mem = v.mem) ∧
       (∀ w, eccHit v unit 32 = some w ∨ failedUnit v unit 32 = some w → ∃ u, exec (.patrolScrub k off l) s = .next u ∧
         u.mem = v.mem ∧ u.mov.hbmStacks[stackOf w].uev = true ∧
         (v.mov.hbmStacks[stackOf w].uev = false → failedUnit v unit 32 = none →
           u.mov.hbmStacks[stackOf w].ueaddr = BitVec.ofNat 48 (w - attBase)))) ∧
     (∃ u, exec (.hbmPhyError k) s = .next u ∧ u.mov.hbmStacks[k] = { s.mov.hbmStacks[k] with phyFailed := true } ∧
       u.pw.seedsValid = false ∧ ∀ a n store, 0 < n → stackOf a = k → attachedBad u store a n ≠ none)) ∧
  (∀ (s : State) (n : ScrubberId) (l : List Upset),
     let x := s.slath.units[n]
     let v := l.foldl (fun s u => upset u s) s
     let goes (u : State) : Prop := exec (.scrubRow n l) s = .next u
     (s.slath.scrubEn = false → exec .scrubRowDue s = .next s) ∧
     (s.slath.scrubEn = true →
       let f := s.slath.lastDue + max 1 s.slath.interval.toNat
       let w := settle (max s.now (2 * f)) s
       ∃ u, exec .scrubRowDue s = .next u ∧ u.slath.lastDue = f ∧ 2 * f ≤ u.now ∧ u.mem = w.mem ∧
         u.slath.units[n] = { w.slath.units[n] with
           dueRows := w.slath.units[n].dueRows + 1, since := if w.slath.units[n].dueRows = 0 then f else w.slath.units[n].since }) ∧
     (v.slath.units[n].dueRows = 0 ∨ scrubPresent v n = false → goes v) ∧
     (v.slath.units[n].dueRows ≠ 0 → scrubPresent v n = true → goes (scrubSlot n 2048 v)) ∧
     (let f := s.now / 2
      let w := settle (2 * f + 1) s
      let waits := w.bg.any fun r => bgPort r.addr == some n.val && bgPending w f r
      ∀ k, (phaseUsed w f n.val = false → waits = false ∨ scrubClaims w f n.val = true →
         scrubSlot n (k + 1) s = usePhase f n.val (scrubRow n w)) ∧
       (phaseUsed w f n.val = true ∨ (waits = true ∧ scrubClaims w f n.val = false) →
         scrubSlot n (k + 1) s = scrubSlot n k (settle (2 * f + 2) w))) ∧
     (let u := scrubRow n s
      let a := scrubAddr n x.row
      u.slath.units[n].row = (x.row + 1) % scrubRows n ∧ u.slath.units[n].dueRows = x.dueRows - 1 ∧
      (∀ j : ScrubberId, j ≠ n → u.slath.units[j] = s.slath.units[j]) ∧ u.mem = s.mem ∧ u.eccBad = s.eccBad ∧
      (∀ w, w ∈ u.eccSoft ↔ w ∈ s.eccSoft ∧ ¬(a ≤ w ∧ w < a + 64)) ∧
      (s.eccSoft = [] → s.eccBad = [] → u.slath.cecnt = s.slath.cecnt) ∧
      (s.eccBad = [] → ∀ w, s.eccSoft = [w] → a ≤ w → w < a + 64 → u.slath.cecnt = satAdd s.slath.cecnt 1) ∧
      (∀ w ∈ s.eccBad, a ≤ w → w < a + 64 → u.slath.eccValid = true)) ∧
     ((x.dueRows = 0 ∨ x.starved = true ∨ s.slath.scrubEn = false ∨ scrubPresent s n = false) → exec (.scrubberStarved n) s = .next s) ∧
     (x.dueRows ≠ 0 → x.starved = false → s.slath.scrubEn = true → scrubPresent s n = true →
       let w := settle (max s.now (2 * (x.since + 1000000000))) s
       ∃ u, exec (.scrubberStarved n) s = .next u ∧ u.slath.starveCnt = satAdd w.slath.starveCnt 1 ∧
         u.slath.units[n] = { x with starved := true } ∧ u.now = w.now ∧ u.mem = w.mem) ∧
     (∃ u, exec .eccaddrValidClear s = .next u ∧ u.slath.eccValid = false ∧ u.ev.line.getLsbD 342 = false ∧
       u.slath.eccAddr = s.slath.eccAddr))

/-! ## The fabric, the background requests and scrub -/

/-- What cores have sent is performed and returns (R73, R255-R259, R440): the oldest entry of a store buffer drains into
LDS; in the next perform cycle of a core every request of that cycle is performed in the order of issue, after those of
lower cores where one goes to control space; a store into the global scratchpad changes its bytes and no others, and a
part of a load brings its bytes; a load whose parts have come is written in its cycle, or gives MACHINE_CHECK where it
met an error; a block read returns 104 cycles after it was sent; a load of ARRIVE or UARTRX is performed in its perform
cycle, and ARRIVE takes the oldest entry of an earlier cycle. Background requests (R253, R257, R261, R263, R285): one
that the key rule refuses comes to that in its cycle; any other is pending from its fabric cycle on; a bank or port
grants at most one in a fabric cycle, in phase B, the first at or after the rotating pointer (its place is the model's
choice, log entry 101), or the row of a starved scrubber in place of every one; a read brings the bytes of its range,
and a write changes its bytes and no others. -/
def Obligations.FabricAccesses : Prop :=
  (∀ (s : State) (c : CoreId),
     let ms := (s.core c).ms
     ((ms.storeBuf.find? fun e => e.drained.isNone) = none → exec (.storeBufferDrain c) s = .next s) ∧
     (∀ e, (ms.storeBuf.find? fun e => e.drained.isNone) = some e →
       (drainCycle ms e s.now = none → exec (.storeBufferDrain c) s = .next s) ∧
       (∀ t, drainCycle ms e s.now = some t → ∃ u, exec (.storeBufferDrain c) s = .next u ∧
         u = drainEntry c e t (settle t s) ∧ t ≤ u.now ∧ u.mem = (settle t s).mem ∧ (u.core c).ms.lastDrain = t ∧
         { cycle := t, rank := 1, core := c, what := .put (ldsBase c + e.off) e.bytes e.tag } ∈ u.timed ∧
         ∀ x ∈ (u.core c).ms.storeBuf, x.enter = e.enter → x.off = e.off → x.drained.isSome = true)) ∧
     (nextPerform ms.freqs = none → exec (.globalAccessPerform c) s = .next s) ∧
     (∀ d, nextPerform ms.freqs = some d →
       let w := settle (max s.now d) s
       let group := (w.core c).ms.freqs.filter fun r => r.due = d
       (∃ r ∈ ms.freqs, r.due = d) ∧ (∀ r ∈ ms.freqs, d ≤ r.due) ∧ d ≤ w.now ∧
       exec (.globalAccessPerform c) s = .next (group.foldl (fun u r => performNow c r u)
         (if group.any FabricReq.control then lowerFirst c d w else w))) ∧
     (∀ r bs, r.kind = .store bs none → 0 < bs.length → inGlobal r.addr bs.length = true → Memory.wf s.mem = true →
       let u := performNow c r s
       (∀ i, i < bs.length → memGet u.mem (r.addr + i) = bs.getD i 0) ∧
       ∀ x, x < r.addr ∨ r.addr + bs.length ≤ x → memGet u.mem x = memGet s.mem x) ∧
     (∀ r g off n, r.kind = .load g.lid off n → ms.gloads = [g] → 0 < n → inGlobal r.addr n = true → s.eccBad = [] → s.eccSoft = [] →
       let u := performNow c r s
       u.mem = s.mem ∧ (u.core c).ms.gloads = [{ g with data := overlay g.data off (s.bytes r.addr n), tag := tagGet s r.addr }]) ∧
     (firstLoad ms.gloads = none → exec (.globalLoadComplete c) s = .next s) ∧
     (∀ g, firstLoad ms.gloads = some g → (∀ r ∈ ms.freqs, ∀ off n, r.kind ≠ .load g.lid off n) →
       let done (bs : List Byte) (tag : Bool) (s : State) : State :=
         let w := (settle (max s.now g.due) s).modMs c fun m => { m with gloads := m.gloads.filter fun x => x.lid ≠ g.lid }
         if twinWaits w c then passOn c (if g.bad.isSome then [] else bs) tag w else w
       (g ∈ ms.gloads ∧ ∀ x ∈ ms.gloads, g.due ≤ x.due) ∧
       (g.twin = false → g.bad = none → exec (.globalLoadComplete c) s = .next (deliverLoad c g g.data g.tag (done g.data g.tag s))) ∧
       (g.twin = false → ∀ w, g.bad = some w →
         exec (.globalLoadComplete c) s = .next (consumedEcc c g.due 2 w.toNat (done g.data g.tag s))) ∧
       (g.twin = true → g.bad = none → ∀ bs tag rest, (s.pair (pairOf c)).loadQ = (bs, tag) :: rest → bs.length ≠ 64 →
         let v := s.modPair (pairOf c) fun p => { p with loadQ := rest }
         exec (.globalLoadComplete c) s = .next (if bs = [] then done bs tag v else deliverLoad c g bs tag (done bs tag v)))) ∧
     (∀ g bs tag r sgn, g.dest = .reg r sgn → r ≠ 0 → deliverLoad c g bs tag s = pushAt c g.due g.seq (.reg r (TWord.plain
       (if sgn then BitVec.ofInt 128 (toSigned (8 * bs.length) (ofLe bs)) else BitVec.ofNat 128 (ofLe bs)))) s) ∧
     (ms.blocks = [] → exec (.blockReadReturn c) s = .next s) ∧
     (∀ b rest d, ms.blocks = b :: rest → b.data = some d →
       let w := (settle (max s.now (b.sent + 104)) s).modMs c fun m => { m with blocks := m.blocks.filter fun x => x.bid ≠ b.bid }
       let z := if twinBlocksWait w c then passOn c (List.replicate (b.addr % 64) 0 ++ d) false w else w
       exec (.blockReadReturn c) s = .next (if b.toVec then vecReturn c b d z else mvblReturn c b d z)) ∧
     (∀ (r : RingId) (gd : Reg),
       let load (i : Instr) (o : Nat) : Prop :=
         let at_ (q : FabricReq) : Bool := match q.kind with | .load _ _ len => overlaps q.addr len (ctlBase + o) 8 | _ => false
         let perform (q : FabricReq) (v : State) : State := performNow c q (lowerFirst c q.due (settle (max v.now q.due) v))
         let v := sendLoad c s.now (ctlBase + o) 8 (.reg gd false) 0 (s.core c).atBase s
         (∀ q, ms.freqs.find? at_ = some q → exec i s = .next (perform q s)) ∧
         (ms.freqs.find? at_ = none → runs s c = false → exec i s = .next s) ∧
         (ms.freqs.find? at_ = none → runs s c = true →
           (∀ q, (v.core c).ms.freqs.find? at_ = some q → exec i s = .next (perform q v)) ∧
           ((v.core c).ms.freqs.find? at_ = none → exec i s = .next v))
       load (.arrive c r gd) (0x500018 + 0x100 * r.val) ∧ load (.uartrx c gd) 0x600308 ∧
       ∀ q g, q.kind = .load g.lid 0 8 → q.addr = ctlBase + 0x500018 + 0x100 * r.val → ms.gloads = [g] → ringExists s r = true →
         g.data.length = 8 →
         let u := performNow c q s
         let gives (v : Nat) : Prop := (u.core c).ms.gloads = [{ g with data := leBytes 8 v, tag := false }]
         (∀ e rest, s.link.rings[r].arrivals = e :: rest → e.cycle < s.now →
           gives (2 ^ 63 + e.slot.toNat * 2 ^ 48 + e.rgen.toNat * 2 ^ 44 + e.len.toNat * 2 ^ 32 + e.acyc.toNat) ∧
           u.link.rings[r] = { s.link.rings[r] with arrivals := rest }) ∧
         ((∀ e ∈ s.link.rings[r].arrivals, s.now ≤ e.cycle) → gives 0 ∧ u.link.rings = s.link.rings))) ∧
  (∀ (s : State) (x f p : Nat) (r : BgReq) (key : Option (BitVec 4)) (store : Bool),
     let done (bs : List Byte) (tags : List Nat) (bad refused : Option Nat) : BgDone := ⟨r.who, r.job, r.off, bs, tags, bad, refused⟩
     let size := match r.what with | .read n => n | .write bs _ => bs.length
     let mine (q : BgReq) : Bool := bgPort q.addr == some p && bgPending s f q
     (s.keyBad = [] → s.keySoft = [] → (∀ d ∈ doneOf s r.who r.job, d.refused = none) →
       let u := performTimed { cycle := x, rank := 0, core := 0, what := .send r key store } s
       let refused := key.bind fun k => keyRefusal s k store r.addr size
       (∀ q, refused = some q → u = bgGot r.who (max r.sent (x / 2)) { s with bgDone := s.bgDone ++ [done [] [] none (some q)] }) ∧
       (refused = none → u.bg = s.bg ++ [{ r with sent := max r.sent (x / 2) }] ∧ u.mem = s.mem ∧ ∃ y ∈ u.timed, y.what = .grant)) ∧
     (phaseUsed s f p = true → grantPort f p s = s) ∧
     (phaseUsed s f p = false → scrubClaims s f p = false →
       ((∀ q ∈ s.bg, mine q = false) → grantPort f p s = s) ∧
       ((∃ q ∈ s.bg, mine q = true) → ∃ q ∈ s.bg, mine q = true ∧ (∀ y ∈ s.bg, mine y = true → bgPlace f q.who ≤ bgPlace f y.who) ∧
         grantPort f p s = usePhase f p (bgGot q.who f (performBg q { s with bg := s.bg.erase q })))) ∧
     (∀ u : ScrubberId, p = u.val → phaseUsed s f p = false → scrubClaims s f p = true →
       grantPort f p s = usePhase f p (scrubRow u s) ∧ f % 1024 = 1023 ∧ s.slath.units[u].starved = true) ∧
     (∀ n, r.what = .read n → inGlobal r.addr n = true → 0 < n → s.eccBad = [] → s.eccSoft = [] →
       let u := performBg r s
       u.bgDone = s.bgDone ++ [done (s.bytes r.addr n) (taggedWords s r.addr n) none none] ∧ u.mem = s.mem) ∧
     (∀ bs : List Byte, r.what = .write (bs.map some) [] → inGlobal r.addr bs.length = true → 0 < bs.length → Memory.wf s.mem = true →
       let u := performBg r s
       u.bgDone = s.bgDone ++ [done [] [] none none] ∧ (∀ i, i < bs.length → memGet u.mem (r.addr + i) = bs.getD i 0) ∧
       ∀ y, y < r.addr ∨ r.addr + bs.length ≤ y → memGet u.mem y = memGet s.mem y))

/-! ## The host link -/

/-- Rings, doorbells and admission (R427-R437, R444): host writes cross one in a fabric cycle, after the windows that have
begun; RCTL enables and resets a ring, and clearing EN leaves MIR; a host write into a slot is sent under its credit and
counted as dropped without it; a doorbell takes the credit and is admitted or goes to the busy responder; a window
begins; resets of functions, VFs and the link clear their rings; a link that reaches none of the nine combinations stays
down. -/
def Obligations.Rings : Prop :=
  ∀ (s : State) (r : RingId) (mir : Bool),
    let x := s.link.rings[r]
    let v := hostCrosses s
    let y := v.link.rings[r]
    let cleared (x : Ring) : Ring := { x with cred := 0, whcred := 0, wcnt := 0, state := 0, arrivals := [], eseq := 0, rgen := x.rgen + 1, admitted := 0 }
    let off (x : Ring) : Ring := { cleared x with en := false, mir := false, cmir := 0, ehbase := 0, ecbase := 0 }
    (let f := max (fcFrom s.now) (s.link.lastWrite + 1)
     2 * f ≤ v.now ∧ v.link.lastWrite = f ∧ v.now / 200000 ≤ v.link.window) ∧
    (ringExists v r = true → ∃ u, exec (.rctlEnable r mir) s = .next u ∧
      u.link.rings[r] = { y with en := true, mir := mir, cred := if y.en then y.cred else BitVec.allOnes 64 }) ∧
    (∃ u, exec (.rctlDisable r mir) s = .next u ∧
      u.link.rings[r] = if y.en then { cleared y with en := false } else { y with mir := mir }) ∧
    (∃ u, exec (.ringReset r) s = .next u ∧ u.link.rings[r] = cleared x ∧
      (∀ j : RingId, j ≠ r → u.link.rings[j] = s.link.rings[j]) ∧ ∀ b ∈ u.link.busyQ, b.ring = r → b.live = false) ∧
    (∀ (f : FunctionId) (o : BitVec 24) (bs : List Byte),
      let refused : State := pulse 386 (hostSend (.aer 1) (hostSend .unsupported s))
      let goes (u : State) : Prop := exec (.hostSlotWrite ⟨f, o⟩ bs) s = .next u
      (takesRequest s f = none → goes s) ∧ (takesRequest s f = some false → goes refused) ∧
      (takesRequest s f = some true → bar2Parts f o.toNat bs.length = none → goes refused) ∧
      (∀ p, takesRequest s f = some true → bar2Parts f o.toNat bs.length = some [(p, 0, bs.length)] → 0 < bs.length →
        p % 0x800 + bs.length ≤ 0x800 → ringAt p = r →
        let on := decide (p < 0x800000) && ringOn v r && y.cred.getLsbD (p / 0x800 % 64)
        let a := globalBase + p
        (on = true → goes ((blockParts a bs.length).foldl (fun u q => schedule 0 (2 * v.link.lastWrite) 0
          (.send ⟨115, q.1, v.link.lastWrite, none, 0, q.1 - a, .write ((slice bs (q.1 - a) q.2).map some) []⟩ none true) u) v)) ∧
        (on = false → ∃ u, goes (pulse 392 u) ∧ u.mem = v.mem ∧ u.link.rings[r] = { y with dropcnt := satAdd y.dropcnt 1 }))) ∧
    (∀ o n, 0 < n → (bar2Parts 1 o n = if o + n ≤ 2 ^ 24 then some [(o, 0, n)] else none) ∧
      ∀ f : FunctionId, f.val = r.val + 1 → r ≠ 0 →
        (o + n ≤ 0x20000 → bar2Parts f o n = some [(0x20000 * r.val + o, 0, n)]) ∧
        (0x20000 ≤ o → o + n ≤ 0x40000 → bar2Parts f o n = some [(0x800000 + 0x20000 * r.val + (o - 0x20000), 0, n)]) ∧
        (0x40000 < o + n → bar2Parts f o n = none)) ∧
    (∀ (slot : BitVec 6) (len : BitVec 12),
      let v := hostCrosses (awaitJob 115 0 16384 s)
      let y := v.link.rings[r]
      let ok := ringOn v r && y.cred.getLsbD slot.toNat && decide (1 ≤ len.toNat) && decide (len.toNat ≤ 2048)
      let z := { y with cred := putBit y.cred slot.toNat false, wcnt := satAdd y.wcnt 1 }
      (ok = true → y.wcnt.toNat + 1 ≤ y.ceil.toNat → ∃ u, exec (.idb r slot len) s = .next (pulse (96 + r.val) u) ∧
        u.now = v.now ∧ u.link.rings[r] = { z with
          arrivals := y.arrivals ++ [{ slot := slot, rgen := y.rgen, len := len, acyc := BitVec.ofNat 32 v.now, cycle := v.now }]
          admitted := putBit y.admitted slot.toNat true }) ∧
      (ok = true → y.ceil.toNat < y.wcnt.toNat + 1 → ∃ u, exec (.idb r slot len) s = .next u ∧
        u.link.rings[r] = { z with state := if y.wcnt.toNat + 1 ≤ 2 * y.ceil.toNat then (if y.state = 0 then 1 else y.state) else 2 } ∧
        u.link.busyQ = v.link.busyQ ++ [{ ring := r, slot := slot, live := true, len := len, cycle := v.now }]) ∧
      (ok = false → ∃ u, exec (.idb r slot len) s = .next (pulse 392 u) ∧ u.link.rings[r] = { y with dropcnt := satAdd y.dropcnt 1 } ∧
        u.link.busyQ = v.link.busyQ)) ∧
    (0 < s.link.early → exec .admissionWindowStart s = .next { s with link := { s.link with early := s.link.early - 1 } }) ∧
    (s.link.early = 0 →
      let w := settle (max s.now (200000 * (s.link.window + 1))) s
      let x := w.link.rings[r]
      ∃ u, exec .admissionWindowStart s = .next u ∧ u.link.window = s.link.window + 1 ∧ u.now = w.now ∧
      (x.state = 0 → u.link.rings[r] = { x with wcnt := 0 }) ∧ (x.state = 1 → u.link.rings[r] = { x with wcnt := 0, state := 0 }) ∧
      (x.state = 2 → x.wcnt.toNat ≤ x.ceil.toNat →
        u.link.rings[r] = { x with wcnt := 0, state := 0, cred := x.cred ||| x.whcred, whcred := 0 }) ∧
      (x.state = 2 → x.ceil.toNat < x.wcnt.toNat → u.link.rings[r] = { x with wcnt := 0 })) ∧
    (∀ (f : FunctionId) (cause : FlrCause),
      let goes (u : State) : Prop := exec (.functionLevelReset ⟨f, cause⟩) s = .next u
      (takesRequest s f = none → goes s) ∧
      (takesRequest s f ≠ none → cause = .toD3hot → goes { s with link := { s.link with d3hot := putBit s.link.d3hot f.val true } }) ∧
      (takesRequest s f = some true → cause = .toD0 → goes s) ∧
      (takesRequest s f ≠ none → cause = .flr ∨ (cause = .toD0 ∧ takesRequest s f = some false) →
        ∃ u, goes (pulse 388 u) ∧ u.link.d3hot = putBit s.link.d3hot f.val false ∧ u.now = s.now ∧
          (f.val = r.val + 1 → u.link.rings[r] = off x) ∧ (f.val ≠ r.val + 1 → u.link.rings[r] = x))) ∧
    (∀ n, exec (.vfEnableSet n) s = .next
      (if s.link.vfEnable then s else { s with link := { s.link with vfEnable := true, numVfs := n } })) ∧
    (s.link.vfEnable = false → exec .vfEnableClear s = .next s) ∧
    (s.link.vfEnable = true → ∃ u, exec .vfEnableClear s = .next u ∧ u.link.vfEnable = false ∧
      u.link.rings[r] = (if r.val ≠ 0 ∧ ringExists s r = true then off x else x)) ∧
    (∀ (width : BitVec 5) (speed : BitVec 4),
      let reaches := (width ∈ ([4, 8, 16] : List (BitVec 5))) ∧ (speed ∈ ([4, 5, 6] : List (BitVec 4)))
      let down (i : Instr) : Prop := ∃ u, exec i s = .next u ∧ u.link.up = false ∧ u.link.width = 0 ∧ u.link.speed = 0 ∧
        u.link.vfEnable = false ∧ u.link.rings[r] = off x
      down (.linkStateChange false width speed) ∧ down .pciePerst ∧
      (¬reaches → s.link.up = true → down (.linkStateChange true width speed)) ∧
      (¬reaches → s.link.up = false → exec (.linkStateChange true width speed) s = .next s) ∧
      (reaches → exec (.linkStateChange true width speed) s =
        .next (pulse 384 { s with link := { s.link with up := true, width := width, speed := speed } })))

/-- Responses (R438, R439, R441-R443): a post is taken where its slot is admitted and its RGEN is the ring's, and refused
with PERR else; a transfer starts with the reads of its slot, block k in F0 + 4k, and ends with the handover of the
response, its completion record and its credit; the busy responder takes the echo's bytes and the template, writes the
response into its slot, and hands it over with KIND 1, after the channel where both hand over for a ring in one cycle. -/
def Obligations.Responses : Prop :=
  ∀ (s : State),
    let sends (who job a n f step : Nat) (after : Option (CoreId × Nat)) (u : State) : State :=
      (blockParts a n).zipIdx.foldl (fun u q => schedule 0 (2 * (f + step * q.2)) 0
        (.send ⟨who, q.1.1, f + step * q.2, after, job, q.1.1 - a, .read q.1.2⟩ none false) u) u
    let writes (k : BusyRun) (f : Nat) (u : State) : State :=
      let a := egressSlot k.item.ring k.item.slot.toNat
      (blockParts a k.body.length).foldl (fun u q => schedule 0 (2 * f) 0
        (.send ⟨116, q.1, f, none, 1, q.1 - a, .write ((slice k.body (q.1 - a) q.2).map some) []⟩ none true) u) u
    (∀ (r : RingId) (v : BitVec 64),
      let x := s.link.rings[r]
      let ch := ringChannel r
      let ok := ringOn s r && x.admitted.getLsbD (v.extractLsb' 48 6).toNat && decide ((v.extractLsb' 32 12).toNat ≤ 2048)
      (v.extractLsb' 44 4 ≠ x.rgen → exec (.epost r v) s = .next s) ∧
      (v.extractLsb' 44 4 = x.rgen → ok = false → ∃ u, exec (.epost r v) s = .next u ∧
        u.link.rings[r] = { x with perr := true } ∧ u.link.egress = s.link.egress) ∧
      (v.extractLsb' 44 4 = x.rgen → ok = true → ∃ u p, exec (.epost r v) s = .next u ∧
        u.link.rings[r] = { x with admitted := putBit x.admitted (v.extractLsb' 48 6).toNat false } ∧
        u.link.egress[ch] = { s.link.egress[ch] with posts := s.link.egress[ch].posts ++ [p] } ∧
        p = { ring := r, slot := v.extractLsb' 48 6, live := true, len := v.extractLsb' 32 12, rcode := v.setWidth 32,
              cycle := s.now, after := none })) ∧
    (∀ x : EgressId, s.link.egress[x].cur ≠ none ∨ s.link.egress[x].posts = [] → exec (.egressTransferStart x) s = .next s) ∧
    (∀ (x : EgressId) (p : Post) (rest : List Post), s.link.egress[x].cur = none → s.link.egress[x].posts = p :: rest →
      let f := max (p.cycle / 2) s.link.egress[x].lastEnd + 1
      let w := settle (max s.now (2 * f)) s
      let t : Transfer := { post := p, start := f, stop := f + 130 + 4 * cdiv p.len.toNat 64 - 1 }
      exec (.egressTransferStart x) s = .next (sends 115 (1 + x.val) (egressSlot p.ring p.slot.toNat) p.len.toNat f 4 p.after
        { w with link := { w.link with egress := w.link.egress.set x { w.link.egress[x] with posts := rest, cur := some t } } })) ∧
    (let hands (v u : State) (r : RingId) (slot : BitVec 6) (bytes : List Byte) (kind : Nat) (rcode : BitVec 32) : Prop :=
       let y := openWindows v
       let x := y.link.rings[r]
       u.link.rings[r].eseq = x.eseq + 1 ∧
       u.link.rings[r].busycnt = (if kind = 1 then satAdd x.busycnt 1 else x.busycnt) ∧
       (x.state ≠ 2 → u.link.rings[r].cred = putBit x.cred slot.toNat true ∧ u.link.rings[r].whcred = x.whcred) ∧
       (x.state = 2 → u.link.rings[r].whcred = putBit x.whcred slot.toNat true ∧ u.link.rings[r].cred = x.cred) ∧
       (bytes ≠ [] → .write (r.val + 1) (x.ehbase + BitVec.ofNat 64 (0x800 * slot.toNat)).toNat bytes ∈ u.link.out) ∧
       .write (r.val + 1) (x.ecbase + BitVec.ofNat 64 (16 * (x.eseq.toNat % 64))).toNat
         (leBytes 8 (x.eseq + 1).toNat ++ leBytes 2 bytes.length ++ [BitVec.ofNat 8 slot.toNat, BitVec.ofNat 8 kind] ++
           leBytes 4 rcode.toNat) ∈ u.link.out ∧
       u.mem = v.mem
     (∀ x : EgressId, s.link.egress[x].cur = none → exec (.egressHandover x) s = .next s) ∧
     (∀ (x : EgressId) (t : Transfer), s.link.egress[x].cur = some t →
       let v := awaitEgress x t 16384 (settle (max s.now (2 * t.stop + 1)) s)
       ∃ u, exec (.egressHandover x) s = .next u ∧
       u.link.egress[x] = { v.link.egress[x] with cur := none, lastEnd := t.stop } ∧ u.now = v.now ∧
       (t.post.live = true →
         hands v u t.post.ring t.post.slot (gathered (doneOf v 115 (1 + x.val)) t.post.len.toNat) 0 t.post.rcode) ∧
       (t.post.live = false → u.link.rings = (openWindows v).link.rings)) ∧
     (s.link.busyRun = none → exec .busyHandover s = .next s) ∧
     (∀ b, s.link.busyRun = some b →
       let stop := b.start + 1999
       let w := settle (max s.now (2 * stop + 1)) s
       let ch := ringChannel b.item.ring
       let first := match w.link.egress[ch].cur with
         | some t => if t.stop = stop ∧ t.post.ring = b.item.ring then egressEnd ch t w else w
         | none => w
       let v := awaitBg 116 16384 first
       ∀ k, v.link.busyRun = some k → ∃ u, exec .busyHandover s = .next u ∧ u.link.busyRun = none ∧ u.link.busyEnd = stop ∧
         (k.item.live = true → hands v u b.item.ring b.item.slot k.body 1 0) ∧
         (k.item.live = false → u.link.rings = (openWindows v).link.rings))) ∧
    (s.link.busyRun ≠ none ∨ s.link.busyQ = [] → exec .busyResponseStart s = .next s) ∧
    (∀ b rest, s.link.busyRun = none → s.link.busyQ = b :: rest →
      let f := max (b.cycle / 2) s.link.busyEnd + 1
      let w := settle (max s.now (2 * f)) s
      let x := w.link.rings[b.ring]
      let e := min x.echo.toNat b.len.toNat
      let k : BusyRun := { item := b, start := f, echo := e, body := w.bytes (busyTemplate b.ring) x.tlen.toNat }
      let u := { w with link := { w.link with busyQ := rest, busyRun := some k } }
      (e = 0 → exec .busyResponseStart s = .next (writes k f u)) ∧
      (e ≠ 0 → exec .busyResponseStart s = .next (sends 116 0 (ingressSlot b.ring b.slot.toNat) e f 0 none u))) ∧
    (∀ (b : BusyRun) (f : Nat), s.link.busyRun = some b → doneOf s 116 1 = [] →
      let ds := doneOf s 116 0
      let got : BusyRun := { b with echo := 0, body := gathered ds b.echo ++ b.body }
      ds ≠ [] → (blockParts (ingressSlot b.item.ring b.item.slot.toNat) b.echo).length ≤ ds.length →
      busyGot f s = writes got (f + 1)
        { s with bgDone := s.bgDone.filter fun d => !(d.who = 116 ∧ d.job = 0), link := { s.link with busyRun := some got } })

/-- Accesses of the host, the mailboxes and the errors of the link (R427-R431, R445-R448, R467): an access crosses in a
fabric cycle; a function that is not there takes none, and one in D3hot only configuration (the model's reading, log
entry 107); the aperture reads and writes attached memory under its key, and an access that it does not open, or that
meets an error, completes with Unsupported Request; a load through BAR0 returns the registers that the host sees,
through BAR2 the bytes of the rings' area. -/
def Obligations.LinkAccesses : Prop :=
  ∀ s : State,
    let refused (s : State) : State := pulse 386 (hostSend (.aer 1) (hostSend .unsupported s))
    (∀ p ∈ ([(.poisoned, 1), (.ecrc, 1), (.completionTimeout, 1), (.malformed, 2), (.receiverOverflow, 2), (.flowControl, 2),
        (.dataLink, 2), (.internal, 2), (.receiverError, 0), (.badTlp, 0), (.badDllp, 0), (.replay, 0)] : List (TlpError × BitVec 2)),
      exec (.tlpError p.1) s = .next (pulse (385 + p.2.toNat) (hostSend (.aer p.2) s))) ∧
    exec (.tlpError .unsupportedRequest) s = .next (refused s) ∧
    (∀ k, exec (.ideStreamError k) s = .next (pulse 386 (hostSend (.aer 1)
      (pulse 391 { s with link := { s.link with ideInsecure := putBit s.link.ideInsecure k.val true } })))) ∧
    (let w := settle (evenFrom s.now) s
     ∀ (bar : HostBar) (off : BitVec 30) (access : HostAccess),
      let goes (u : State) : Prop := exec (.hostApertureAccess ⟨bar, off⟩ access) s = .next u
      let o := off.toNat
      let fits (n size : Nat) : Prop := 1 ≤ n ∧ n ≤ 8 ∧ o % 8 + n ≤ 8 ∧ o + n ≤ size
      (∀ f, bar = .bar0 f ∨ bar = .bar2 f ∨ (bar = .bar4 ∧ f = 0) →
        (takesRequest w f = none → goes w) ∧ (takesRequest w f = some false → goes (refused w))) ∧
      (bar = .bar4 → takesRequest w 0 = some true →
        let a := w.link.apBase.toNat * 2 ^ 30 + o
        let opened (n : Nat) : Bool := w.link.apEn && inAttached a n
        (∀ n, access = .read n →
          (opened n = false → goes (refused w)) ∧
          (opened n = true → attachedCheck w w.link.apKey false a n = none →
            goes (hostSend (.readData (w.bytes a n)) (markFrames (softRead a n w) a n false))) ∧
          (opened n = true → ∀ p, attachedCheck w w.link.apKey false a n = some (1, p) → goes (refused (attachedMark w w.link.apKey a n))) ∧
          (opened n = true → ∀ p, attachedCheck w w.link.apKey false a n = some (2, p) →
            goes (refused (stackError p (attachedMark w w.link.apKey a n))))) ∧
        (∀ bs, access = .write bs →
          (opened bs.length = false → goes (refused w)) ∧
          (opened bs.length = true → ∀ p, attachedCheck w w.link.apKey true a bs.length = some (1, p) → goes (refused w)) ∧
          (opened bs.length = true → ∀ p, attachedCheck w w.link.apKey true a bs.length = some (2, p) → goes (refused (stackError p w))) ∧
          (opened bs.length = true → attachedCheck w w.link.apKey true a bs.length = none → Memory.wf w.mem = true → ∃ u,
            goes u ∧ (∀ i, i < bs.length → memGet u.mem (a + i) = bs.getD i 0) ∧
            (∀ y, (y < a ∨ a + bs.length ≤ y) → y < attUsable → memGet u.mem y = memGet w.mem y) ∧ u.link = w.link))) ∧
      (∀ n f, bar = .bar0 f → takesRequest w f = some true → access = .read n →
        (f = 0 → fits n 0x4000000 → goes (hostSend (.readData (hostLoad o n w)) w)) ∧
        (f ≠ 0 → fits n 0x1000 → goes (hostSend (.readData ((List.range n).map fun i => pageByte f w (o + i))) w)) ∧
        (¬fits n (if f = 0 then 0x4000000 else 0x1000) → goes (refused w))) ∧
      (∀ bs f, bar = .bar0 f → takesRequest w f = some true → access = .write bs →
        (fits bs.length (if f = 0 then 0x4000000 else 0x1000) →
          goes (hostWrite (if f = 0 then ctlBase + o else hostPage f.val + o) bs w)) ∧
        (¬fits bs.length (if f = 0 then 0x4000000 else 0x1000) → goes (refused w))) ∧
      (∀ n f, bar = .bar2 f → takesRequest w f = some true → access = .read n →
        (bar2Parts f o n = none → goes (refused w)) ∧
        (∀ ps, bar2Parts f o n = some ps →
          let asked := ps.foldl (fun u p => (blockParts (globalBase + p.1) p.2.2).foldl (fun u q => schedule 0 (2 * (w.now / 2)) 0
            (.send ⟨115, q.1, w.now / 2, none, 5, q.1 - (globalBase + p.1), .read q.2⟩ none false) u) u) w
          let z := awaitJob 115 5 16384 asked
          let clean : State := { z with bgDone := z.bgDone.filter fun d => !(d.who = 115 ∧ d.job = 5) }
          ((∀ d ∈ doneOf z 115 5, d.bad = none) → goes (hostSend (.readData ((doneOf z 115 5).flatMap fun d => d.bytes)) clean)) ∧
          ((∃ d ∈ doneOf z 115 5, d.bad ≠ none) → goes (refused clean)))) ∧
      (∀ n f, bar = .config f → takesRequest w f ≠ none → access = .read n →
        goes (hostSend (.readData ((List.range n).map fun i => configByte w f (o + i))) w)) ∧
      (∀ bs f, bar = .config f → access = .write bs → goes w)) ∧
    (∀ (f : FunctionId) (n o : Nat),
      configByte s f 0 = 0x2B ∧ configByte s f 1 = 0x0E ∧ (hostLoad o n s).length ≤ n ∧
      (∀ i, i < n → hostSees (o + i) = false → (hostLoad o n s).getD i 0 = 0)) ∧
    (∀ len : BitVec 13,
      let v := hostCrosses s
      (v.link.mbBusy = true → exec (.mbh2d len) s = .next v) ∧
      (v.link.mbBusy = false → 1 ≤ len.toNat → len.toNat ≤ 4096 →
        exec (.mbh2d len) s = .next (pulse 389 { v with link := { v.link with mbH2d := len, mbBusy := true } })) ∧
      (v.link.mbBusy = false → len.toNat = 0 ∨ 4096 < len.toNat →
        exec (.mbh2d len) s = .next { v with link := { v.link with mbH2d := len, mbBusy := false } }) ∧
      exec (.mbd2h len) s = .next (msixSend 0 { s with link := { s.link with mbD2h := len, mbBusy := false } })) ∧
    (∀ len, (len ≤ 4096 → exec (.doeRequest len) s = .next (pulse 390 { s with link := { s.link with doe := some len } })) ∧
      (4096 < len → exec (.doeRequest len) s = .next s))

/-! ## Clocks, supplies and resets -/

/-- Clock modes and time (R475-R478): a store to CLKCTL is taken where R476 allows it, and the mode changes in its cycle,
lean mode clearing the tags of the key handles in general registers; an edge of TSPPS begins a second, with SEC set by
an armed TAISET; without one NS wraps; SYNC falls without edges and without TSCLK, whose return counts on; a reading of
TAI is of either of two adjacent ticks. -/
def Obligations.ClocksAndTime : Prop :=
  ∀ s : State,
    let p := s.pw
    (∀ c lean, (p.clkLean = lean → exec (.clkctlLean c lean) s = .next s) ∧
      (p.clkLean ≠ lean → modeChangeAllowed s c = true → ∃ u, exec (.clkctlLean c lean) s = .next u ∧
        u.pw = { p with clkLean := lean, clkRefused := false, clkSwitch := some (evenFrom (s.now + 2), lean) } ∧ u.lean = s.lean) ∧
      (p.clkLean ≠ lean → modeChangeAllowed s c = false → ∃ u, exec (.clkctlLean c lean) s = .next u ∧
        u.pw = { p with clkRefused := true })) ∧
    (p.clkSwitch = none → exec .clockModeSwitch s = .next s) ∧
    (∀ t lean, p.clkSwitch = some (t, lean) →
      let w := settle (max s.now t) s
      ∃ u, exec .clockModeSwitch s = .next u ∧ u.lean = lean ∧ u.pw.clkSwitch = none ∧
      u.now = w.now ∧ t ≤ u.now ∧ (lean = true → ∀ (c : CoreId) (r : Reg), isHandle ((u.core c).reg r) = false) ∧
      (lean = false → u.cores = w.cores) ∧ u.mem = w.mem) ∧
    (∀ ticks, ∃ u, exec (.tsppsEdge ticks) s = .next u ∧ u.now = s.now ∧ u.pw.taiNs = 0 ∧ u.pw.taiCycle = s.now ∧
      u.pw.taiArm = false ∧ (p.taiArm = true → u.pw.taiSec = p.taiSet ∧ u.pw.taiApplied = true) ∧
      (p.taiArm = false → p.wrapped = false →
        p.taiNs.toNat + 100 * ((s.now - p.taiCycle) / (if s.lean then 100 else 200)) < 1000000000 → u.pw.taiSec = p.taiSec + 1) ∧
      (p.edgesSeen = true → 9999999 ≤ ticks → ticks ≤ 10000001 → u.pw.goodEdges = p.goodEdges + 1 ∧ u.pw.ppserr = p.ppserr) ∧
      (p.edgesSeen = true → (ticks < 9999999 ∨ 10000001 < ticks) → u.pw.goodEdges = 0 ∧ u.pw.ppserr = satAdd p.ppserr 1 ∧
        u.pw.sync = false)) ∧
    (p.tsok = false → exec .taiSecondWrap s = .next s) ∧
    (p.tsok = true →
      let z := p.taiCycle + (if s.lean then 100 else 200) * ((1000000000 - p.taiNs.toNat + 99) / 100)
      let w := settle (max s.now z) s
      exec .taiSecondWrap s =
        .next { w with pw := { w.pw with taiNs := 0, taiCycle := z, wrapped := true, taiSec := w.pw.taiSec + 1 } }) ∧
    (∃ u, exec .syncTimeout s = .next u ∧ u.pw = { p with sync := false, goodEdges := 0, ppserr := satAdd p.ppserr 1 }) ∧
    (p.tsok = false → exec .tsclkLoss s = .next s) ∧
    (p.tsok = true → ∃ u, exec .tsclkLoss s = .next u ∧ u.pw.tsok = false ∧ u.pw.sync = false ∧ u.pw.goodEdges = 0) ∧
    (p.tsok = true → exec .tsclkReturn s = .next s) ∧
    (p.tsok = false → ∃ u, exec .tsclkReturn s = .next u ∧ u.pw = { p with tsok := true, taiCycle := s.now }) ∧
    (let word (d : Nat) : BitVec 96 :=
       let ns := p.taiNs.toNat + 100 * (if p.tsok then (s.now - p.taiCycle) / (if s.lean then 100 else 200) + d else 0)
       BitVec.ofNat 96 ((p.taiSec + BitVec.ofNat 48 (ns / 1000000000)).toNat * 2 ^ 32 + ns % 1000000000)
     (taiRead s).1 = word 0 ∨ (taiRead s).1 = word 1)

/-- Resets and start-up (R473, R480-R493): each condition makes a device reset due after its time with its bit of RSTCAUSE;
the reset puts every core to its reset state and holds it, keeps the DMK and its RSTCAUSE bits, empties the key store
and begins the DRBG's start-up test; power-on reset starts RSTCAUSE anew; start-up with an accepted image in copy A,
trained from its seeds and with its entropy tests passed, ends with core 0 at the image's entry; it stops at a failed
self-test, under a reserved strap and under strap 2, and does not begin after a thermal trip, nor while the clock is
lost. -/
def Obligations.ResetsAndStartup : Prop :=
  ∀ s : State,
    (∀ ns : Nat, 10000 ≤ ns → s.pw.resetDue = none →
      ∀ q ∈ ([(.supplyReset .core, 20, 0x04), (.supplyReset .sram, 20, 0x08), (.supplyReset .io, 20, 0x10),
        (.rstN ns, 20, 0x02), (.devrst 0x52535421, 1000, 0x20)] : List (Instr × Nat × BitVec 8)),
      ∃ u, exec q.1 s = .next u ∧ u.pw = { s.pw with resetDue := some (s.now + nsToCc s q.2.1, q.2.2) } ∧ u.cores = s.cores) ∧
    (s.pw.resetDue = none → ∃ u, exec .clockLoss s = .next u ∧ u.cores = s.cores ∧
      u.pw = { s.pw with clkLost := true, resetDue := some (s.now + nsToCc s 20, 0x40) }) ∧
    (∀ ns t cause, s.pw.resetDue = some (t, cause) → s.now + nsToCc s 20 = t → 10000 ≤ ns →
      ∃ u, exec (.rstN ns) s = .next u ∧ u.pw = { s.pw with resetDue := some (t, cause ||| 0x02) }) ∧
    (∀ ns, ns < 10000 → ∃ u, exec (.rstN ns) s = .next u ∧ u.cores = s.cores) ∧
    (∀ v, v ≠ 0x52535421 → exec (.devrst v) s = .next s) ∧
    (s.pw.resetDue = none → exec .deviceReset s = .next s) ∧
    (∀ t cause, s.pw.resetDue = some (t, cause) →
      let x := inhibitWrites (settle (max s.now (t - nsToCc s 20)) s)
      let w := settle (max x.now t) x
      ∃ u, exec .deviceReset s = .next u ∧
      u.pw.rstcause = (w.pw.rstcause ||| cause) ∧ u.pw.trip = w.pw.trip ∧ u.pw.resetHeld = true ∧ u.pw.resetDue = none ∧
      u.pw.trimTorn = false ∧ u.pw.okh = w.pw.okh ∧ u.headSlots = w.headSlots ∧ u.eccBad = [] ∧ u.timed = [] ∧ u.bg = [] ∧
      u.cores = State.reset.cores ∧ u.ks.dmk = w.ks.dmk ∧ u.ks.keys = [] ∧ u.lean = true ∧ u.pending = w.pending ∧
      u.drbg.state = 0 ∧ u.drbg.testUntil = nsToCc u 2000000 ∧ (∀ c, runs u c = false)) ∧
    (∃ u, exec .powerOnReset s = .next u ∧ u.pw.rstcause = 1 ∧ u.pw.trip = false ∧ u.pw.resetHeld = true ∧ u.pw.clkLost = false ∧
      u.cores = State.reset.cores ∧ u.sb.tapIr = 1 ∧ u.jn.skipped = [] ∧ ∀ c, runs u c = false) ∧
    (∀ inp,
      let goes (u : State) : Prop := exec (.bootSequence inp) s = .next u
      (s.pw.trip = true ∨ (s.pw.clkLost = true ∧ inp.clockBack = false) ∨ (s.pw.resetHeld = false ∧ s.pw.bootStage ≠ 0) → goes s) ∧
      (s.pw.trip = false → s.pw.clkLost = false ∨ inp.clockBack = true → s.pw.resetHeld = true ∨ s.pw.bootStage = 0 →
        (inp.selfTestOk = false → ∃ u, goes u ∧ u.pw.bootErr = 4 ∧ u.pw.bootStage = 3 ∧ u.pw.resetHeld = false) ∧
        (inp.selfTestOk = true → inp.strap = 2 → ∃ u, goes u ∧ u.pw.bootErr = s.pw.bootErr ∧ u.pw.bootStage = 3 ∧ u.pw.bootSel = 2) ∧
        (inp.selfTestOk = true → inp.strap = 3 → ∃ u, goes u ∧ u.pw.bootErr = 0xF) ∧
        (inp.selfTestOk = true → inp.strap = 1 → inp.pushed = none → ∃ u, goes u ∧ u.pw.bootStage = 4 ∧ u.pw.bootSel = 1 ∧
          u.cores = s.cores) ∧
        (inp.selfTestOk = true → inp.strap = 0 → inp.copyA = none → inp.copyB = none → inp.pushed = none → ∃ u, goes u ∧
          u.pw.bootErr = 6 ∧ u.pw.bootStage = 4 ∧ u.cores = s.cores) ∧
        (∀ m, inp.selfTestOk = true → inp.strap = 0 → inp.copyA = some m → imgRefusal s m = none → s.pw.seedsValid = true →
          (inp.seedTrainingOk = false → ∃ u, goes u ∧ u.pw.bootErr = 5 ∧ u.pw.seedsValid = false) ∧
          (inp.seedTrainingOk = true → rctFails inp.samples = false → aptFails inp.samples = false → ∃ u, goes u ∧
            u.pw.bootStage = 11 ∧ u.pw.bootErr = s.pw.bootErr ∧ u.pw.bootSel = 0 ∧ u.pw.resetHeld = false ∧ u.pw.clkLost = false ∧
            u.drbg.state = 1 ∧ u.ks.dmkValid = true ∧ (u.core 0).pc = 0x108000 ∧ (u.core 0).regs = (s.core 0).regs ∧
            u.cfg.patchrev = BitVec.ofNat 16 (imgField m 0x12 2)))))

/-- Supplies, temperature, fuses and the trim page (R421, R481-R485, R494-R496, R533): the warnings and the inhibit set
their status and their lines and clear them; telemetry and the hottest sensor are reported; a thermal trip makes a reset
due; the trim page and OKH are read, and written in their times, the trim page after a part of a head slot, and refused
under the inhibit. -/
def Obligations.SuppliesAndFuses : Prop :=
  ∀ s : State,
    let line (u : State) (n : Nat) : Bool := u.ev.line.getLsbD n
    (∃ u, exec (.supplyWarning .core) s = .next u ∧ u.pw = { s.pw with cwarn := true } ∧ line u 336 = true) ∧
    (s.pw.mwarn = true → exec (.supplyWarning .mram) s = .next s) ∧
    (s.pw.mwarn = false → ∃ u, exec (.supplyWarning .mram) s = .next (journalWarning u) ∧ u.pw = { s.pw with mwarn := true } ∧
      line u 336 = true ∧ line u 340 = true) ∧
    (∃ u, exec (.supplyWarningRelease .core) s = .next u ∧ u.pw = { s.pw with cwarn := false } ∧ line u 336 = s.pw.mwarn) ∧
    (∃ u, exec (.supplyWarningRelease .mram) s = .next u ∧ u.pw = { s.pw with mwarn := false } ∧ line u 336 = s.pw.cwarn ∧
      line u 340 = false) ∧
    (s.pw.minh = true → exec .mramWriteInhibit s = .next s) ∧
    (s.pw.minh = false → ∃ u, exec .mramWriteInhibit s = .next u ∧ u.pw.minh = true ∧ line u 341 = true ∧ u.jn.partWrite = none ∧
      u.pw.trimBusy = false ∧ u.pw.okhBusy = false ∧ (s.pw.okhBusy = true → u.pw.okhResult = 3 ∧ u.pw.okhBad = true) ∧
      (s.pw.trimBusy = true → u.pw.trimTorn = true ∧ u.pw.trimBad = true)) ∧
    (s.pw.minh = false → exec .mramInhibitEnd s = .next s) ∧
    (s.pw.minh = true → ∃ u, exec .mramInhibitEnd s = .next (journalInhibitEnd u) ∧ u.pw = { s.pw with minh := false } ∧
      line u 341 = false) ∧
    (∀ core io mram, ∃ u, exec (.supplyTelemetryTick core io mram) s = .next u ∧
      u.pw = { s.pw with coreMv := core, ioMv := io, mramMv := mram }) ∧
    (∀ raw : List (BitVec 16), raw ≠ [] → raw.length ≤ 16 →
      let v (i : Nat) : Int := (raw.getD i 0).toInt + (s.pw.trimOffsets.getD i 0).toInt
      ∃ u i, exec (.thermalSample raw) s = .next u ∧ i < raw.length ∧ (∀ j < raw.length, v j ≤ v i) ∧ (∀ j < i, v j < v i) ∧
        u.pw.tmax = BitVec.ofInt 16 (v i) ∧ u.pw.sensor = BitVec.ofNat 4 i ∧
        (s.pw.thCfg.toInt ≤ v i → u.pw.thWarn = true) ∧ (v i < s.pw.thCfg.toInt - 32 → u.pw.thWarn = false) ∧
        line u 338 = u.pw.thWarn ∧ (tripLevel s.grade ≤ v i → u.pw.trip = true ∧ u.pw.resetDue.isSome = true) ∧
        (v i < tripLevel s.grade → u.pw.trip = s.pw.trip ∧ u.pw.resetDue = s.pw.resetDue)) ∧
    (∀ v, (v ≠ 0x5452494D ∨ s.pw.trimBusy = true ∨ s.pw.minh = true → exec (.trimwr v) s = .next s) ∧
      (s.pw.trimBusy = false → s.pw.minh = false → inGlobal s.pw.trimSrc.toNat 0xFFC = true → s.eccBad = [] → s.eccSoft = [] →
        let new := s.bytes s.pw.trimSrc.toNat 0xFFC
        let start := match s.jn.partWrite with | some w => max s.now w.stop | none => s.now
        ∃ u, exec (.trimwr 0x5452494D) s = .next u ∧ u.mem = s.mem ∧
          u.pw = { s.pw with trimBusy := true, trimStart := start, trimNew := new ++ leBytes 4 (crc32 new).toNat })) ∧
    (s.pw.trimBusy = false → exec .trimRewriteComplete s = .next s) ∧
    (s.pw.trimBusy = true →
      let w := settle (max s.now (s.pw.trimStart + nsToCc s 320000)) s
      exec .trimRewriteComplete s =
        .next { w with pw := { w.pw with trimBusy := false, trimTorn := false, trimBad := false, trimPage := w.pw.trimNew } }) ∧
    (s.pw.okhBusy = false →
      let result (r : BitVec 3) : Prop := ∃ u, exec .okhprogGo s = .next u ∧ u.pw = { s.pw with okhResult := r }
      (s.cfg.lock = true → result 4) ∧ (s.cfg.lock = false → s.pw.minh = true → result 3) ∧
      (s.cfg.lock = false → s.pw.minh = false → (s.pw.okhDone || s.pw.okhBad) = true → result 2) ∧
      (s.cfg.lock = false → s.pw.minh = false → (s.pw.okhDone || s.pw.okhBad) = false → inGlobal s.pw.okhAddr.toNat 48 = true →
        s.eccBad = [] → s.eccSoft = [] → ∃ u, exec .okhprogGo s = .next u ∧ u.mem = s.mem ∧
        u.pw = { s.pw with okhBusy := true, okhStart := s.now, okhNew := s.bytes s.pw.okhAddr.toNat 48 })) ∧
    (s.pw.okhBusy = false → exec .okhProgrammingComplete s = .next s) ∧
    (s.pw.okhBusy = true → exec .okhprogGo s = .next s ∧
      let w := settle (max s.now (s.pw.okhStart + nsToCc s 2000000)) s
      exec .okhProgrammingComplete s =
        .next { w with pw := { w.pw with okhBusy := false, okhDone := true, okhResult := 1, okh := w.pw.okhNew } })

/-! ## Sideband and JTAG -/

/-- GPIO, UART, SMBus and Quad-SPI (R512-R518): a pin's line follows its level under OE and POL as they are at the pin; what
is stored takes effect at the pins 2 fabric cycles later, and the levels driven are sensed 2 or 3 after that; bytes pass
through the FIFOs with their error bits; packets are queued, offered, read and dropped; the bytes of a flash read are in
the global scratchpad when it completes. JTAG (R519-R522): each instruction selects its register; IDCODE and IDDATA
capture what the spec gives, BYPASS, CLAMP and HIGHZ the one bit of the bypass register (log entry 30), and the scans
what the pins show, a free value; nothing outside the TAP changes. -/
def Obligations.SidebandAndJtag : Prop :=
  (∀ s : State,
     let b := s.sb
     let follow (u : State) : Prop := ∀ n : GpioId, u.ev.line.getLsbD (496 + n.val) =
       (!u.sb.pinOe.getLsbD n.val && (u.sb.gpioPin.getLsbD n.val != u.sb.pinPol.getLsbD n.val))
     (∀ (pin : GpioId) (level : Bool), ∃ u, exec (.gpioInputChange pin level) s = .next u ∧
       u.sb = { b with gpioPin := putBit b.gpioPin pin.val level } ∧ follow u) ∧
     gpioStored s = schedule 0 (s.now + 4) 0 (.pins b.gpioPol b.gpioOe b.gpioOut) s ∧
     (∀ x pol oe out, ∃ d v, (d = 2 ∨ d = 3) ∧
       performTimed { cycle := x, rank := 0, core := 0, what := .pins pol oe out } s = schedule 0 (s.now + 2 * d) 0 (.sense oe out) v ∧
       v.sb = { b with pinPol := pol, pinOe := oe } ∧ follow v) ∧
     (∀ x mask level,
       let u := performTimed { cycle := x, rank := 0, core := 0, what := .sense mask level } s
       u.sb = { b with gpioPin := (b.gpioPin &&& ~~~mask) ||| (level &&& mask) } ∧ follow u) ∧
     (∀ x : Byte,
       (16 ≤ b.uartTx.length → ∃ u, exec (.uarttx x) s = .next u ∧ u.sb = { b with txovr := true }) ∧
       (b.uartTx.length < 16 → b.uartEnd.isSome = true → ∃ u, exec (.uarttx x) s = .next u ∧
         u.sb = { b with uartTx := b.uartTx ++ [x] }) ∧
       (b.uartTx.length < 16 → b.uartEnd = none → ∀ y r, b.uartTx ++ [x] = y :: r → ∃ u, exec (.uarttx x) s = .next u ∧
         u.sb = { b with uartTx := r, uartEnd := some (s.now + nsToCc s 86800), uartOut := b.uartOut ++ [y] }) ∧
       (∃ u, exec (.uartByteReceived x false) s = .next u ∧ u.sb = { b with ferr := true }) ∧
       (16 ≤ b.uartRx.length → ∃ u, exec (.uartByteReceived x true) s = .next u ∧ u.sb = { b with rxovr := true }) ∧
       (b.uartRx.length < 16 → ∃ u, exec (.uartByteReceived x true) s = .next u ∧ u.sb = { b with uartRx := b.uartRx ++ [x] } ∧
         u.ev.line.getLsbD 344 = true)) ∧
     (b.uartEnd = none → exec .uartByteSent s = .next s) ∧
     (∀ t, b.uartEnd = some t →
       let w := settle (max s.now t) s
       ∃ u, exec .uartByteSent s = .next u ∧ t ≤ u.now ∧
       (w.sb.uartTx = [] → u.sb = { w.sb with uartEnd := none }) ∧
       (∀ x r, w.sb.uartTx = x :: r → u.sb = { w.sb with
         uartTx := r, uartEnd := some (max s.now t + nsToCc w 86800), uartOut := w.sb.uartOut ++ [x] })) ∧
     (∀ (c : CoreId) (q : FabricReq) (g : GLoad), q.kind = .load g.lid 0 8 → q.addr = ctlBase + 0x600308 → (s.core c).ms.gloads = [g] →
       g.data.length = 8 →
       let u := performNow c q s
       let gives (v : Nat) : Prop := (u.core c).ms.gloads = [{ g with data := leBytes 8 v, tag := false }]
       (∀ x r, b.uartRx = x :: r → gives (256 + x.toNat) ∧ u.sb = { b with uartRx := r }) ∧
       (b.uartRx = [] → gives 0 ∧ u.sb = b)) ∧
     (∀ (bytes : List Byte) (pec : Bool),
       let ok := pec && decide (1 ≤ bytes.length) && decide (bytes.length ≤ 72) && decide (b.smRx.length < 8)
       (ok = true → exec (.smbusBlockWrite bytes pec) s = .next (pulse 345 { s with sb := { b with smRx := b.smRx ++ [bytes] } })) ∧
       (ok = false → exec (.smbusBlockWrite bytes pec) s = .next { s with sb := { b with smDrops := satAdd b.smDrops 1 } })) ∧
     (∀ p, b.smOffer = some p →
       exec (.smbusBlockRead true) s =
         .next (pulse 346 { s with sb := { b with smOffer := none, smOut := b.smOut ++ [BitVec.ofNat 8 p.length :: p] } }) ∧
       exec (.smbusBlockRead false) s = .next s ∧
       exec .smbusAlertResponse s = .next { s with sb := { b with smOut := b.smOut ++ [[0x4E]] } }) ∧
     (∀ whole, b.smOffer = none → exec (.smbusBlockRead whole) s = .next s ∧ exec .smbusAlertResponse s = .next s) ∧
     exec .smbrxpop s = .next { s with sb := { b with smRx := b.smRx.tail } } ∧
     (∀ len : BitVec 7,
       (b.smOffer = none → 1 ≤ len.toNat → len.toNat ≤ 72 → ∃ u, exec (.smbtxctlGo len) s = .next u ∧
         u.sb = { b with smTxLen := len, smOffer := some (slice b.smTxBuf 0 len.toNat) }) ∧
       (b.smOffer.isSome = true ∨ len.toNat = 0 ∨ 72 < len.toNat →
         exec (.smbtxctlGo len) s = .next { s with sb := { b with smTxLen := len } })) ∧
     (∀ q, b.qRun = some q → exec .qspictlGo s = .next { s with sb := { b with qErr := 2 } }) ∧
     (b.qRun = none → qspiRefused b = true → exec .qspictlGo s = .next { s with sb := { b with qErr := 1 } }) ∧
     (b.qRun = none → qspiRefused b = false → ∃ u, exec .qspictlGo s = .next u ∧
       (let due := s.now + nsToCc s (250 * ((b.qLen.toNat + 65535) / 65536) + 25 * b.qLen.toNat)
        u.sb = { b with qErr := 0, qRun := some (b.qDst.toNat, b.qLen.toNat, due) })) ∧
     (∀ bytes, b.qRun = none → exec (.qspiReadComplete bytes) s = .next s) ∧
     (∀ d n t bytes, b.qRun = some (d, n, t) →
       let w := settle (max s.now t) s
       let early := (n - 1) / 64 * 64
       let y := if early = 0 then w else putGlobal d (slice bytes 0 early) w
       let last := slice bytes early (n - early)
       let z := awaitBg 117 16384 ((blockParts (d + early) last.length).foldl (fun u q => schedule 0 (2 * fcFrom y.now) 0
         (.send ⟨117, q.1, fcFrom y.now, none, 0, q.1 - (d + early), .write ((slice last (q.1 - (d + early)) q.2).map some) []⟩
           none true) u) y)
       exec (.qspiReadComplete bytes) s = .next (pulse 347 { z with sb := { z.sb with qRun := none } })) ∧
     (∀ a bs, 0 < bs.length → inGlobal a bs.length = true → Memory.wf s.mem = true →
       (∀ i, i < bs.length → memGet (putGlobal a bs s).mem (a + i) = bs.getD i 0) ∧
       ∀ y, y < a ∨ a + bs.length ≤ y → memGet (putGlobal a bs s).mem y = memGet s.mem y)) ∧
  (∀ (s : State) (bits : List Bool),
     let bitsOf (n v : Nat) : List Bool := (List.range n).map fun i => v.testBit i
     let ident := (List.range 160).map (identityAt s)
     (∀ p ∈ ([(.idcode, 0x01, bitsOf 32 (if s.grade = .fd480S then 0xB04809D7 else 0xB06409D7)), (.clamp, 0x06, [false]),
         (.highz, 0x07, [false]), (.bypass, 0xFF, [false]), (.iddata, 0x10, (ident.map fun b => bitsOf 8 b.toNat).flatten)] :
         List (Instr × BitVec 8 × List Bool)),
       exec p.1 s = .next { s with sb := { s.sb with tapIr := p.2.1, tapDr := p.2.2 } }) ∧
     (∃ u, exec .tapReset s = .next u ∧ u.sb.tapIr = 0x01 ∧ u = { s with sb := u.sb } ∧ u.sb.tapPreload = s.sb.tapPreload) ∧
     (∀ p ∈ ([(.samplePreload bits, 0x02), (.extest, 0x03), (.extestPulse, 0x04), (.extestTrain, 0x05)] : List (Instr × BitVec 8)),
       ∃ u pre, exec p.1 s = .next u ∧
         u = { s with sb := { s.sb with tapIr := p.2, tapDr := Config.boundaryScan s.free, tapPreload := pre }, free := s.free + 1 } ∧
         pre = (if p.2 = 0x02 then bits else s.sb.tapPreload)))

/-! ## Registers -/

/-- Writes of registers (R14, R247, R293, R334, R344, R428, R433, R448): a write of control space reaches its registers, and
one outside it nothing; EVROUTE by base level takes its writable bits, and by another level nothing; a timer's CMP is
written by any level; LGCAPT takes a capability with its tag; a reserved address takes nothing; a host's write crosses
in a free fabric cycle, and one outside its registers, or over two units, is an Unsupported Request. -/
def Obligations.RegisterWrites : Prop :=
  ∀ (s : State) (v : TWord) (sysreg : Bool),
    let w (who : Writer) (o : Nat) (size : RegSize) : Instr := .registerWrite who (BitVec.ofNat 52 (ctlBase + o)) size v
    let refused : State := pulse 386 (hostSend (.aer 1) (hostSend .unsupported s))
    (∀ (addr : Addr) (size : RegSize),
      let bs := leBytes (match size with | .b1 => 1 | .b2 => 2 | .b4 => 4 | .b8 => 8 | .b16 => 16) v.val.toNat
      (∀ who ∈ [Writer.base, .native sysreg],
        (within addr.toNat bs.length ctlBase ctlSize = true →
          exec (.registerWrite who addr size v) s = .next (csWrite who none (addr.toNat - ctlBase) bs v.tag s)) ∧
        (within addr.toNat bs.length ctlBase ctlSize = false → exec (.registerWrite who addr size v) s = .next s)) ∧
      (8 < bs.length ∨ 8 < addr.toNat % 8 + bs.length → exec (.registerWrite .host addr size v) s = .next refused) ∧
      (bs.length ≤ 8 → addr.toNat % 8 + bs.length ≤ 8 → within addr.toNat bs.length ctlBase 0x500000 = true →
        exec (.registerWrite .host addr size v) s = .next (csWrite .host none (addr.toNat - ctlBase) bs false (hostCrosses s)))) ∧
    (∀ n : EventId, s.ev.levels = [] → s.grade ≠ .fd480S →
      (∃ u, exec (w .base (0x100000 + 8 * n.val) .b8) s = .next u ∧
        u.ev.route[n] = ((s.ev.route[n] &&& ~~~0x00F3FFFFFFFFFFFF) ||| (v.val.setWidth 64 &&& 0x00F3FFFFFFFFFFFF)) ∧
        (∀ j : EventId, j ≠ n → u.ev.route[j] = s.ev.route[j]) ∧ u.mem = s.mem ∧ u.cores = s.cores) ∧
      exec (w (.native sysreg) (0x100000 + 8 * n.val) .b8) s = .next s) ∧
    (∀ c : CoreId, s.grade ≠ .fd480S → ∀ who ∈ [Writer.base, .native sysreg],
      ∃ u, exec (w who (0x120008 + 0x20 * c.val) .b8) s = .next u ∧
        u.ev.timers[c] = { s.ev.timers[c] with cmp := v.val.setWidth 64 } ∧ u.mem = s.mem ∧ u.cores = s.cores) ∧
    (∀ c : CoreId, ∃ u, exec (w .base (0x1000 + 0x20 * c.val) .b16) s = .next u ∧ u.cfg.lgcapt[c] = v ∧ u.cfg.lgcaps = s.cfg.lgcaps ∧
      exec (w (.native sysreg) (0x1000 + 0x20 * c.val) .b16) s = .next s) ∧
    exec (w .base 0xF00000 .b8) s = .next s ∧ exec (w .host 0x4000000 .b8) s = .next refused
end

