-- ==== Sys2Proof/Laws/State.lean ====
section
/-! SUPPORT. One lemma for each field under each update of State: what an update of one component leaves as it was. -/
namespace Sys2Proof.Machine

/-! ## One core -/

@[simp] theorem setCore_now (s : State) (c : CoreId) (k : Core) : (s.setCore c k).now = s.now := rfl
@[simp] theorem setCore_grade (s : State) (c : CoreId) (k : Core) : (s.setCore c k).grade = s.grade := rfl
@[simp] theorem setCore_lean (s : State) (c : CoreId) (k : Core) : (s.setCore c k).lean = s.lean := rfl
@[simp] theorem setCore_pairs (s : State) (c : CoreId) (k : Core) : (s.setCore c k).pairs = s.pairs := rfl
@[simp] theorem setCore_mem (s : State) (c : CoreId) (k : Core) : (s.setCore c k).mem = s.mem := rfl
@[simp] theorem setCore_tags (s : State) (c : CoreId) (k : Core) : (s.setCore c k).tags = s.tags := rfl
@[simp] theorem setCore_fkeys (s : State) (c : CoreId) (k : Core) : (s.setCore c k).fkeys = s.fkeys := rfl
@[simp] theorem setCore_keyActs (s : State) (c : CoreId) (k : Core) : (s.setCore c k).keyActs = s.keyActs := rfl
@[simp] theorem setCore_eccBad (s : State) (c : CoreId) (k : Core) : (s.setCore c k).eccBad = s.eccBad := rfl
@[simp] theorem setCore_cfg (s : State) (c : CoreId) (k : Core) : (s.setCore c k).cfg = s.cfg := rfl
@[simp] theorem setCore_slath (s : State) (c : CoreId) (k : Core) : (s.setCore c k).slath = s.slath := rfl
@[simp] theorem setCore_ev (s : State) (c : CoreId) (k : Core) : (s.setCore c k).ev = s.ev := rfl
@[simp] theorem setCore_engines (s : State) (c : CoreId) (k : Core) : (s.setCore c k).engines = s.engines := rfl
@[simp] theorem setCore_ks (s : State) (c : CoreId) (k : Core) : (s.setCore c k).ks = s.ks := rfl
@[simp] theorem setCore_drbg (s : State) (c : CoreId) (k : Core) : (s.setCore c k).drbg = s.drbg := rfl
@[simp] theorem setCore_jn (s : State) (c : CoreId) (k : Core) : (s.setCore c k).jn = s.jn := rfl
@[simp] theorem setCore_headSlots (s : State) (c : CoreId) (k : Core) : (s.setCore c k).headSlots = s.headSlots := rfl
@[simp] theorem setCore_link (s : State) (c : CoreId) (k : Core) : (s.setCore c k).link = s.link := rfl
@[simp] theorem setCore_mov (s : State) (c : CoreId) (k : Core) : (s.setCore c k).mov = s.mov := rfl
@[simp] theorem setCore_pw (s : State) (c : CoreId) (k : Core) : (s.setCore c k).pw = s.pw := rfl
@[simp] theorem setCore_sb (s : State) (c : CoreId) (k : Core) : (s.setCore c k).sb = s.sb := rfl
@[simp] theorem setCore_free (s : State) (c : CoreId) (k : Core) : (s.setCore c k).free = s.free := rfl
@[simp] theorem setCore_pending (s : State) (c : CoreId) (k : Core) : (s.setCore c k).pending = s.pending := rfl

@[simp] theorem modCore_now (s : State) (c : CoreId) (f : Core → Core) : (s.modCore c f).now = s.now := rfl
@[simp] theorem modCore_grade (s : State) (c : CoreId) (f : Core → Core) : (s.modCore c f).grade = s.grade := rfl
@[simp] theorem modCore_lean (s : State) (c : CoreId) (f : Core → Core) : (s.modCore c f).lean = s.lean := rfl
@[simp] theorem modCore_pairs (s : State) (c : CoreId) (f : Core → Core) : (s.modCore c f).pairs = s.pairs := rfl
@[simp] theorem modCore_mem (s : State) (c : CoreId) (f : Core → Core) : (s.modCore c f).mem = s.mem := rfl
@[simp] theorem modCore_tags (s : State) (c : CoreId) (f : Core → Core) : (s.modCore c f).tags = s.tags := rfl
@[simp] theorem modCore_fkeys (s : State) (c : CoreId) (f : Core → Core) : (s.modCore c f).fkeys = s.fkeys := rfl
@[simp] theorem modCore_keyActs (s : State) (c : CoreId) (f : Core → Core) : (s.modCore c f).keyActs = s.keyActs := rfl
@[simp] theorem modCore_eccBad (s : State) (c : CoreId) (f : Core → Core) : (s.modCore c f).eccBad = s.eccBad := rfl
@[simp] theorem modCore_cfg (s : State) (c : CoreId) (f : Core → Core) : (s.modCore c f).cfg = s.cfg := rfl
@[simp] theorem modCore_slath (s : State) (c : CoreId) (f : Core → Core) : (s.modCore c f).slath = s.slath := rfl
@[simp] theorem modCore_ev (s : State) (c : CoreId) (f : Core → Core) : (s.modCore c f).ev = s.ev := rfl
@[simp] theorem modCore_engines (s : State) (c : CoreId) (f : Core → Core) : (s.modCore c f).engines = s.engines := rfl
@[simp] theorem modCore_ks (s : State) (c : CoreId) (f : Core → Core) : (s.modCore c f).ks = s.ks := rfl
@[simp] theorem modCore_drbg (s : State) (c : CoreId) (f : Core → Core) : (s.modCore c f).drbg = s.drbg := rfl
@[simp] theorem modCore_jn (s : State) (c : CoreId) (f : Core → Core) : (s.modCore c f).jn = s.jn := rfl
@[simp] theorem modCore_headSlots (s : State) (c : CoreId) (f : Core → Core) : (s.modCore c f).headSlots = s.headSlots := rfl
@[simp] theorem modCore_link (s : State) (c : CoreId) (f : Core → Core) : (s.modCore c f).link = s.link := rfl
@[simp] theorem modCore_mov (s : State) (c : CoreId) (f : Core → Core) : (s.modCore c f).mov = s.mov := rfl
@[simp] theorem modCore_pw (s : State) (c : CoreId) (f : Core → Core) : (s.modCore c f).pw = s.pw := rfl
@[simp] theorem modCore_sb (s : State) (c : CoreId) (f : Core → Core) : (s.modCore c f).sb = s.sb := rfl
@[simp] theorem modCore_free (s : State) (c : CoreId) (f : Core → Core) : (s.modCore c f).free = s.free := rfl
@[simp] theorem modCore_pending (s : State) (c : CoreId) (f : Core → Core) : (s.modCore c f).pending = s.pending := rfl

@[simp] theorem modRegs_now (s : State) (c : CoreId) (f : Regs → Regs) : (s.modRegs c f).now = s.now := rfl
@[simp] theorem modRegs_grade (s : State) (c : CoreId) (f : Regs → Regs) : (s.modRegs c f).grade = s.grade := rfl
@[simp] theorem modRegs_lean (s : State) (c : CoreId) (f : Regs → Regs) : (s.modRegs c f).lean = s.lean := rfl
@[simp] theorem modRegs_pairs (s : State) (c : CoreId) (f : Regs → Regs) : (s.modRegs c f).pairs = s.pairs := rfl
@[simp] theorem modRegs_mem (s : State) (c : CoreId) (f : Regs → Regs) : (s.modRegs c f).mem = s.mem := rfl
@[simp] theorem modRegs_tags (s : State) (c : CoreId) (f : Regs → Regs) : (s.modRegs c f).tags = s.tags := rfl
@[simp] theorem modRegs_fkeys (s : State) (c : CoreId) (f : Regs → Regs) : (s.modRegs c f).fkeys = s.fkeys := rfl
@[simp] theorem modRegs_keyActs (s : State) (c : CoreId) (f : Regs → Regs) : (s.modRegs c f).keyActs = s.keyActs := rfl
@[simp] theorem modRegs_eccBad (s : State) (c : CoreId) (f : Regs → Regs) : (s.modRegs c f).eccBad = s.eccBad := rfl
@[simp] theorem modRegs_cfg (s : State) (c : CoreId) (f : Regs → Regs) : (s.modRegs c f).cfg = s.cfg := rfl
@[simp] theorem modRegs_slath (s : State) (c : CoreId) (f : Regs → Regs) : (s.modRegs c f).slath = s.slath := rfl
@[simp] theorem modRegs_ev (s : State) (c : CoreId) (f : Regs → Regs) : (s.modRegs c f).ev = s.ev := rfl
@[simp] theorem modRegs_engines (s : State) (c : CoreId) (f : Regs → Regs) : (s.modRegs c f).engines = s.engines := rfl
@[simp] theorem modRegs_ks (s : State) (c : CoreId) (f : Regs → Regs) : (s.modRegs c f).ks = s.ks := rfl
@[simp] theorem modRegs_drbg (s : State) (c : CoreId) (f : Regs → Regs) : (s.modRegs c f).drbg = s.drbg := rfl
@[simp] theorem modRegs_jn (s : State) (c : CoreId) (f : Regs → Regs) : (s.modRegs c f).jn = s.jn := rfl
@[simp] theorem modRegs_headSlots (s : State) (c : CoreId) (f : Regs → Regs) : (s.modRegs c f).headSlots = s.headSlots := rfl
@[simp] theorem modRegs_link (s : State) (c : CoreId) (f : Regs → Regs) : (s.modRegs c f).link = s.link := rfl
@[simp] theorem modRegs_mov (s : State) (c : CoreId) (f : Regs → Regs) : (s.modRegs c f).mov = s.mov := rfl
@[simp] theorem modRegs_pw (s : State) (c : CoreId) (f : Regs → Regs) : (s.modRegs c f).pw = s.pw := rfl
@[simp] theorem modRegs_sb (s : State) (c : CoreId) (f : Regs → Regs) : (s.modRegs c f).sb = s.sb := rfl
@[simp] theorem modRegs_free (s : State) (c : CoreId) (f : Regs → Regs) : (s.modRegs c f).free = s.free := rfl
@[simp] theorem modRegs_pending (s : State) (c : CoreId) (f : Regs → Regs) : (s.modRegs c f).pending = s.pending := rfl

@[simp] theorem modX_now (s : State) (c : CoreId) (f : ExcRegs → ExcRegs) : (s.modX c f).now = s.now := rfl
@[simp] theorem modX_grade (s : State) (c : CoreId) (f : ExcRegs → ExcRegs) : (s.modX c f).grade = s.grade := rfl
@[simp] theorem modX_lean (s : State) (c : CoreId) (f : ExcRegs → ExcRegs) : (s.modX c f).lean = s.lean := rfl
@[simp] theorem modX_pairs (s : State) (c : CoreId) (f : ExcRegs → ExcRegs) : (s.modX c f).pairs = s.pairs := rfl
@[simp] theorem modX_mem (s : State) (c : CoreId) (f : ExcRegs → ExcRegs) : (s.modX c f).mem = s.mem := rfl
@[simp] theorem modX_tags (s : State) (c : CoreId) (f : ExcRegs → ExcRegs) : (s.modX c f).tags = s.tags := rfl
@[simp] theorem modX_fkeys (s : State) (c : CoreId) (f : ExcRegs → ExcRegs) : (s.modX c f).fkeys = s.fkeys := rfl
@[simp] theorem modX_keyActs (s : State) (c : CoreId) (f : ExcRegs → ExcRegs) : (s.modX c f).keyActs = s.keyActs := rfl
@[simp] theorem modX_eccBad (s : State) (c : CoreId) (f : ExcRegs → ExcRegs) : (s.modX c f).eccBad = s.eccBad := rfl
@[simp] theorem modX_cfg (s : State) (c : CoreId) (f : ExcRegs → ExcRegs) : (s.modX c f).cfg = s.cfg := rfl
@[simp] theorem modX_slath (s : State) (c : CoreId) (f : ExcRegs → ExcRegs) : (s.modX c f).slath = s.slath := rfl
@[simp] theorem modX_ev (s : State) (c : CoreId) (f : ExcRegs → ExcRegs) : (s.modX c f).ev = s.ev := rfl
@[simp] theorem modX_engines (s : State) (c : CoreId) (f : ExcRegs → ExcRegs) : (s.modX c f).engines = s.engines := rfl
@[simp] theorem modX_ks (s : State) (c : CoreId) (f : ExcRegs → ExcRegs) : (s.modX c f).ks = s.ks := rfl
@[simp] theorem modX_drbg (s : State) (c : CoreId) (f : ExcRegs → ExcRegs) : (s.modX c f).drbg = s.drbg := rfl
@[simp] theorem modX_jn (s : State) (c : CoreId) (f : ExcRegs → ExcRegs) : (s.modX c f).jn = s.jn := rfl
@[simp] theorem modX_headSlots (s : State) (c : CoreId) (f : ExcRegs → ExcRegs) : (s.modX c f).headSlots = s.headSlots := rfl
@[simp] theorem modX_link (s : State) (c : CoreId) (f : ExcRegs → ExcRegs) : (s.modX c f).link = s.link := rfl
@[simp] theorem modX_mov (s : State) (c : CoreId) (f : ExcRegs → ExcRegs) : (s.modX c f).mov = s.mov := rfl
@[simp] theorem modX_pw (s : State) (c : CoreId) (f : ExcRegs → ExcRegs) : (s.modX c f).pw = s.pw := rfl
@[simp] theorem modX_sb (s : State) (c : CoreId) (f : ExcRegs → ExcRegs) : (s.modX c f).sb = s.sb := rfl
@[simp] theorem modX_free (s : State) (c : CoreId) (f : ExcRegs → ExcRegs) : (s.modX c f).free = s.free := rfl
@[simp] theorem modX_pending (s : State) (c : CoreId) (f : ExcRegs → ExcRegs) : (s.modX c f).pending = s.pending := rfl

@[simp] theorem modSeq_now (s : State) (c : CoreId) (f : Seq → Seq) : (s.modSeq c f).now = s.now := rfl
@[simp] theorem modSeq_grade (s : State) (c : CoreId) (f : Seq → Seq) : (s.modSeq c f).grade = s.grade := rfl
@[simp] theorem modSeq_lean (s : State) (c : CoreId) (f : Seq → Seq) : (s.modSeq c f).lean = s.lean := rfl
@[simp] theorem modSeq_pairs (s : State) (c : CoreId) (f : Seq → Seq) : (s.modSeq c f).pairs = s.pairs := rfl
@[simp] theorem modSeq_mem (s : State) (c : CoreId) (f : Seq → Seq) : (s.modSeq c f).mem = s.mem := rfl
@[simp] theorem modSeq_tags (s : State) (c : CoreId) (f : Seq → Seq) : (s.modSeq c f).tags = s.tags := rfl
@[simp] theorem modSeq_fkeys (s : State) (c : CoreId) (f : Seq → Seq) : (s.modSeq c f).fkeys = s.fkeys := rfl
@[simp] theorem modSeq_keyActs (s : State) (c : CoreId) (f : Seq → Seq) : (s.modSeq c f).keyActs = s.keyActs := rfl
@[simp] theorem modSeq_eccBad (s : State) (c : CoreId) (f : Seq → Seq) : (s.modSeq c f).eccBad = s.eccBad := rfl
@[simp] theorem modSeq_cfg (s : State) (c : CoreId) (f : Seq → Seq) : (s.modSeq c f).cfg = s.cfg := rfl
@[simp] theorem modSeq_slath (s : State) (c : CoreId) (f : Seq → Seq) : (s.modSeq c f).slath = s.slath := rfl
@[simp] theorem modSeq_ev (s : State) (c : CoreId) (f : Seq → Seq) : (s.modSeq c f).ev = s.ev := rfl
@[simp] theorem modSeq_engines (s : State) (c : CoreId) (f : Seq → Seq) : (s.modSeq c f).engines = s.engines := rfl
@[simp] theorem modSeq_ks (s : State) (c : CoreId) (f : Seq → Seq) : (s.modSeq c f).ks = s.ks := rfl
@[simp] theorem modSeq_drbg (s : State) (c : CoreId) (f : Seq → Seq) : (s.modSeq c f).drbg = s.drbg := rfl
@[simp] theorem modSeq_jn (s : State) (c : CoreId) (f : Seq → Seq) : (s.modSeq c f).jn = s.jn := rfl
@[simp] theorem modSeq_headSlots (s : State) (c : CoreId) (f : Seq → Seq) : (s.modSeq c f).headSlots = s.headSlots := rfl
@[simp] theorem modSeq_link (s : State) (c : CoreId) (f : Seq → Seq) : (s.modSeq c f).link = s.link := rfl
@[simp] theorem modSeq_mov (s : State) (c : CoreId) (f : Seq → Seq) : (s.modSeq c f).mov = s.mov := rfl
@[simp] theorem modSeq_pw (s : State) (c : CoreId) (f : Seq → Seq) : (s.modSeq c f).pw = s.pw := rfl
@[simp] theorem modSeq_sb (s : State) (c : CoreId) (f : Seq → Seq) : (s.modSeq c f).sb = s.sb := rfl
@[simp] theorem modSeq_free (s : State) (c : CoreId) (f : Seq → Seq) : (s.modSeq c f).free = s.free := rfl
@[simp] theorem modSeq_pending (s : State) (c : CoreId) (f : Seq → Seq) : (s.modSeq c f).pending = s.pending := rfl

@[simp] theorem modMs_now (s : State) (c : CoreId) (f : MemSide → MemSide) : (s.modMs c f).now = s.now := rfl
@[simp] theorem modMs_grade (s : State) (c : CoreId) (f : MemSide → MemSide) : (s.modMs c f).grade = s.grade := rfl
@[simp] theorem modMs_lean (s : State) (c : CoreId) (f : MemSide → MemSide) : (s.modMs c f).lean = s.lean := rfl
@[simp] theorem modMs_pairs (s : State) (c : CoreId) (f : MemSide → MemSide) : (s.modMs c f).pairs = s.pairs := rfl
@[simp] theorem modMs_mem (s : State) (c : CoreId) (f : MemSide → MemSide) : (s.modMs c f).mem = s.mem := rfl
@[simp] theorem modMs_tags (s : State) (c : CoreId) (f : MemSide → MemSide) : (s.modMs c f).tags = s.tags := rfl
@[simp] theorem modMs_fkeys (s : State) (c : CoreId) (f : MemSide → MemSide) : (s.modMs c f).fkeys = s.fkeys := rfl
@[simp] theorem modMs_keyActs (s : State) (c : CoreId) (f : MemSide → MemSide) : (s.modMs c f).keyActs = s.keyActs := rfl
@[simp] theorem modMs_eccBad (s : State) (c : CoreId) (f : MemSide → MemSide) : (s.modMs c f).eccBad = s.eccBad := rfl
@[simp] theorem modMs_cfg (s : State) (c : CoreId) (f : MemSide → MemSide) : (s.modMs c f).cfg = s.cfg := rfl
@[simp] theorem modMs_slath (s : State) (c : CoreId) (f : MemSide → MemSide) : (s.modMs c f).slath = s.slath := rfl
@[simp] theorem modMs_ev (s : State) (c : CoreId) (f : MemSide → MemSide) : (s.modMs c f).ev = s.ev := rfl
@[simp] theorem modMs_engines (s : State) (c : CoreId) (f : MemSide → MemSide) : (s.modMs c f).engines = s.engines := rfl
@[simp] theorem modMs_ks (s : State) (c : CoreId) (f : MemSide → MemSide) : (s.modMs c f).ks = s.ks := rfl
@[simp] theorem modMs_drbg (s : State) (c : CoreId) (f : MemSide → MemSide) : (s.modMs c f).drbg = s.drbg := rfl
@[simp] theorem modMs_jn (s : State) (c : CoreId) (f : MemSide → MemSide) : (s.modMs c f).jn = s.jn := rfl
@[simp] theorem modMs_headSlots (s : State) (c : CoreId) (f : MemSide → MemSide) : (s.modMs c f).headSlots = s.headSlots := rfl
@[simp] theorem modMs_link (s : State) (c : CoreId) (f : MemSide → MemSide) : (s.modMs c f).link = s.link := rfl
@[simp] theorem modMs_mov (s : State) (c : CoreId) (f : MemSide → MemSide) : (s.modMs c f).mov = s.mov := rfl
@[simp] theorem modMs_pw (s : State) (c : CoreId) (f : MemSide → MemSide) : (s.modMs c f).pw = s.pw := rfl
@[simp] theorem modMs_sb (s : State) (c : CoreId) (f : MemSide → MemSide) : (s.modMs c f).sb = s.sb := rfl
@[simp] theorem modMs_free (s : State) (c : CoreId) (f : MemSide → MemSide) : (s.modMs c f).free = s.free := rfl
@[simp] theorem modMs_pending (s : State) (c : CoreId) (f : MemSide → MemSide) : (s.modMs c f).pending = s.pending := rfl

@[simp] theorem modDp_now (s : State) (c : CoreId) (f : DataPort → DataPort) : (s.modDp c f).now = s.now := rfl
@[simp] theorem modDp_grade (s : State) (c : CoreId) (f : DataPort → DataPort) : (s.modDp c f).grade = s.grade := rfl
@[simp] theorem modDp_lean (s : State) (c : CoreId) (f : DataPort → DataPort) : (s.modDp c f).lean = s.lean := rfl
@[simp] theorem modDp_pairs (s : State) (c : CoreId) (f : DataPort → DataPort) : (s.modDp c f).pairs = s.pairs := rfl
@[simp] theorem modDp_mem (s : State) (c : CoreId) (f : DataPort → DataPort) : (s.modDp c f).mem = s.mem := rfl
@[simp] theorem modDp_tags (s : State) (c : CoreId) (f : DataPort → DataPort) : (s.modDp c f).tags = s.tags := rfl
@[simp] theorem modDp_fkeys (s : State) (c : CoreId) (f : DataPort → DataPort) : (s.modDp c f).fkeys = s.fkeys := rfl
@[simp] theorem modDp_keyActs (s : State) (c : CoreId) (f : DataPort → DataPort) : (s.modDp c f).keyActs = s.keyActs := rfl
@[simp] theorem modDp_eccBad (s : State) (c : CoreId) (f : DataPort → DataPort) : (s.modDp c f).eccBad = s.eccBad := rfl
@[simp] theorem modDp_cfg (s : State) (c : CoreId) (f : DataPort → DataPort) : (s.modDp c f).cfg = s.cfg := rfl
@[simp] theorem modDp_slath (s : State) (c : CoreId) (f : DataPort → DataPort) : (s.modDp c f).slath = s.slath := rfl
@[simp] theorem modDp_ev (s : State) (c : CoreId) (f : DataPort → DataPort) : (s.modDp c f).ev = s.ev := rfl
@[simp] theorem modDp_engines (s : State) (c : CoreId) (f : DataPort → DataPort) : (s.modDp c f).engines = s.engines := rfl
@[simp] theorem modDp_ks (s : State) (c : CoreId) (f : DataPort → DataPort) : (s.modDp c f).ks = s.ks := rfl
@[simp] theorem modDp_drbg (s : State) (c : CoreId) (f : DataPort → DataPort) : (s.modDp c f).drbg = s.drbg := rfl
@[simp] theorem modDp_jn (s : State) (c : CoreId) (f : DataPort → DataPort) : (s.modDp c f).jn = s.jn := rfl
@[simp] theorem modDp_headSlots (s : State) (c : CoreId) (f : DataPort → DataPort) : (s.modDp c f).headSlots = s.headSlots := rfl
@[simp] theorem modDp_link (s : State) (c : CoreId) (f : DataPort → DataPort) : (s.modDp c f).link = s.link := rfl
@[simp] theorem modDp_mov (s : State) (c : CoreId) (f : DataPort → DataPort) : (s.modDp c f).mov = s.mov := rfl
@[simp] theorem modDp_pw (s : State) (c : CoreId) (f : DataPort → DataPort) : (s.modDp c f).pw = s.pw := rfl
@[simp] theorem modDp_sb (s : State) (c : CoreId) (f : DataPort → DataPort) : (s.modDp c f).sb = s.sb := rfl
@[simp] theorem modDp_free (s : State) (c : CoreId) (f : DataPort → DataPort) : (s.modDp c f).free = s.free := rfl
@[simp] theorem modDp_pending (s : State) (c : CoreId) (f : DataPort → DataPort) : (s.modDp c f).pending = s.pending := rfl

@[simp] theorem setCore_core (s : State) (c : CoreId) (k : Core) : (s.setCore c k).core c = k := by
  simp [State.core, State.setCore]
theorem setCore_core_ne (s : State) {c j : CoreId} (k : Core) (h : j ≠ c) : (s.setCore c k).core j = s.core j := by
  have : c.val ≠ j.val := fun e => h (Fin.ext e.symm)
  simp [State.core, State.setCore, Vector.getElem_set, this]
@[simp] theorem modCore_core (s : State) (c : CoreId) (f : Core → Core) : (s.modCore c f).core c = f (s.core c) :=
  setCore_core s c _
theorem modCore_core_ne (s : State) {c j : CoreId} (f : Core → Core) (h : j ≠ c) : (s.modCore c f).core j = s.core j :=
  setCore_core_ne s _ h
@[simp] theorem modRegs_core (s : State) (c : CoreId) (f : Regs → Regs) :
    (s.modRegs c f).core c = { s.core c with regs := f (s.core c).regs } := modCore_core s c _
theorem modRegs_core_ne (s : State) {c j : CoreId} (f : Regs → Regs) (h : j ≠ c) : (s.modRegs c f).core j = s.core j :=
  modCore_core_ne s _ h
@[simp] theorem modX_core (s : State) (c : CoreId) (f : ExcRegs → ExcRegs) :
    (s.modX c f).core c = { s.core c with x := f (s.core c).x } := modCore_core s c _
theorem modX_core_ne (s : State) {c j : CoreId} (f : ExcRegs → ExcRegs) (h : j ≠ c) : (s.modX c f).core j = s.core j :=
  modCore_core_ne s _ h
@[simp] theorem modSeq_core (s : State) (c : CoreId) (f : Seq → Seq) :
    (s.modSeq c f).core c = { s.core c with seq := f (s.core c).seq } := modCore_core s c _
theorem modSeq_core_ne (s : State) {c j : CoreId} (f : Seq → Seq) (h : j ≠ c) : (s.modSeq c f).core j = s.core j :=
  modCore_core_ne s _ h
@[simp] theorem modMs_core (s : State) (c : CoreId) (f : MemSide → MemSide) :
    (s.modMs c f).core c = { s.core c with ms := f (s.core c).ms } := modCore_core s c _
theorem modMs_core_ne (s : State) {c j : CoreId} (f : MemSide → MemSide) (h : j ≠ c) : (s.modMs c f).core j = s.core j :=
  modCore_core_ne s _ h
@[simp] theorem modDp_core (s : State) (c : CoreId) (f : DataPort → DataPort) :
    (s.modDp c f).core c = { s.core c with dp := f (s.core c).dp } := modCore_core s c _
theorem modDp_core_ne (s : State) {c j : CoreId} (f : DataPort → DataPort) (h : j ≠ c) : (s.modDp c f).core j = s.core j :=
  modCore_core_ne s _ h

/-! ## Units -/

@[simp] theorem modPair_now (s : State) (n : PairId) (f : Pair → Pair) : (s.modPair n f).now = s.now := rfl
@[simp] theorem modPair_grade (s : State) (n : PairId) (f : Pair → Pair) : (s.modPair n f).grade = s.grade := rfl
@[simp] theorem modPair_lean (s : State) (n : PairId) (f : Pair → Pair) : (s.modPair n f).lean = s.lean := rfl
@[simp] theorem modPair_cores (s : State) (n : PairId) (f : Pair → Pair) : (s.modPair n f).cores = s.cores := rfl
@[simp] theorem modPair_mem (s : State) (n : PairId) (f : Pair → Pair) : (s.modPair n f).mem = s.mem := rfl
@[simp] theorem modPair_tags (s : State) (n : PairId) (f : Pair → Pair) : (s.modPair n f).tags = s.tags := rfl
@[simp] theorem modPair_fkeys (s : State) (n : PairId) (f : Pair → Pair) : (s.modPair n f).fkeys = s.fkeys := rfl
@[simp] theorem modPair_keyActs (s : State) (n : PairId) (f : Pair → Pair) : (s.modPair n f).keyActs = s.keyActs := rfl
@[simp] theorem modPair_eccBad (s : State) (n : PairId) (f : Pair → Pair) : (s.modPair n f).eccBad = s.eccBad := rfl
@[simp] theorem modPair_cfg (s : State) (n : PairId) (f : Pair → Pair) : (s.modPair n f).cfg = s.cfg := rfl
@[simp] theorem modPair_slath (s : State) (n : PairId) (f : Pair → Pair) : (s.modPair n f).slath = s.slath := rfl
@[simp] theorem modPair_ev (s : State) (n : PairId) (f : Pair → Pair) : (s.modPair n f).ev = s.ev := rfl
@[simp] theorem modPair_engines (s : State) (n : PairId) (f : Pair → Pair) : (s.modPair n f).engines = s.engines := rfl
@[simp] theorem modPair_ks (s : State) (n : PairId) (f : Pair → Pair) : (s.modPair n f).ks = s.ks := rfl
@[simp] theorem modPair_drbg (s : State) (n : PairId) (f : Pair → Pair) : (s.modPair n f).drbg = s.drbg := rfl
@[simp] theorem modPair_jn (s : State) (n : PairId) (f : Pair → Pair) : (s.modPair n f).jn = s.jn := rfl
@[simp] theorem modPair_headSlots (s : State) (n : PairId) (f : Pair → Pair) : (s.modPair n f).headSlots = s.headSlots := rfl
@[simp] theorem modPair_link (s : State) (n : PairId) (f : Pair → Pair) : (s.modPair n f).link = s.link := rfl
@[simp] theorem modPair_mov (s : State) (n : PairId) (f : Pair → Pair) : (s.modPair n f).mov = s.mov := rfl
@[simp] theorem modPair_pw (s : State) (n : PairId) (f : Pair → Pair) : (s.modPair n f).pw = s.pw := rfl
@[simp] theorem modPair_sb (s : State) (n : PairId) (f : Pair → Pair) : (s.modPair n f).sb = s.sb := rfl
@[simp] theorem modPair_free (s : State) (n : PairId) (f : Pair → Pair) : (s.modPair n f).free = s.free := rfl
@[simp] theorem modPair_pending (s : State) (n : PairId) (f : Pair → Pair) : (s.modPair n f).pending = s.pending := rfl

@[simp] theorem modEngine_now (e : EngineId) (f : Engine → Engine) (s : State) : (modEngine e f s).now = s.now := rfl
@[simp] theorem modEngine_grade (e : EngineId) (f : Engine → Engine) (s : State) : (modEngine e f s).grade = s.grade := rfl
@[simp] theorem modEngine_lean (e : EngineId) (f : Engine → Engine) (s : State) : (modEngine e f s).lean = s.lean := rfl
@[simp] theorem modEngine_cores (e : EngineId) (f : Engine → Engine) (s : State) : (modEngine e f s).cores = s.cores := rfl
@[simp] theorem modEngine_pairs (e : EngineId) (f : Engine → Engine) (s : State) : (modEngine e f s).pairs = s.pairs := rfl
@[simp] theorem modEngine_mem (e : EngineId) (f : Engine → Engine) (s : State) : (modEngine e f s).mem = s.mem := rfl
@[simp] theorem modEngine_tags (e : EngineId) (f : Engine → Engine) (s : State) : (modEngine e f s).tags = s.tags := rfl
@[simp] theorem modEngine_fkeys (e : EngineId) (f : Engine → Engine) (s : State) : (modEngine e f s).fkeys = s.fkeys := rfl
@[simp] theorem modEngine_keyActs (e : EngineId) (f : Engine → Engine) (s : State) : (modEngine e f s).keyActs = s.keyActs := rfl
@[simp] theorem modEngine_eccBad (e : EngineId) (f : Engine → Engine) (s : State) : (modEngine e f s).eccBad = s.eccBad := rfl
@[simp] theorem modEngine_cfg (e : EngineId) (f : Engine → Engine) (s : State) : (modEngine e f s).cfg = s.cfg := rfl
@[simp] theorem modEngine_slath (e : EngineId) (f : Engine → Engine) (s : State) : (modEngine e f s).slath = s.slath := rfl
@[simp] theorem modEngine_ev (e : EngineId) (f : Engine → Engine) (s : State) : (modEngine e f s).ev = s.ev := rfl
@[simp] theorem modEngine_ks (e : EngineId) (f : Engine → Engine) (s : State) : (modEngine e f s).ks = s.ks := rfl
@[simp] theorem modEngine_drbg (e : EngineId) (f : Engine → Engine) (s : State) : (modEngine e f s).drbg = s.drbg := rfl
@[simp] theorem modEngine_jn (e : EngineId) (f : Engine → Engine) (s : State) : (modEngine e f s).jn = s.jn := rfl
@[simp] theorem modEngine_headSlots (e : EngineId) (f : Engine → Engine) (s : State) : (modEngine e f s).headSlots = s.headSlots := rfl
@[simp] theorem modEngine_link (e : EngineId) (f : Engine → Engine) (s : State) : (modEngine e f s).link = s.link := rfl
@[simp] theorem modEngine_mov (e : EngineId) (f : Engine → Engine) (s : State) : (modEngine e f s).mov = s.mov := rfl
@[simp] theorem modEngine_pw (e : EngineId) (f : Engine → Engine) (s : State) : (modEngine e f s).pw = s.pw := rfl
@[simp] theorem modEngine_sb (e : EngineId) (f : Engine → Engine) (s : State) : (modEngine e f s).sb = s.sb := rfl
@[simp] theorem modEngine_free (e : EngineId) (f : Engine → Engine) (s : State) : (modEngine e f s).free = s.free := rfl
@[simp] theorem modEngine_pending (e : EngineId) (f : Engine → Engine) (s : State) : (modEngine e f s).pending = s.pending := rfl
@[simp] theorem modEngine_core (e : EngineId) (f : Engine → Engine) (s : State) (j : CoreId) : (modEngine e f s).core j = s.core j := rfl

@[simp] theorem modKs_now (f : KeyStore → KeyStore) (s : State) : (modKs f s).now = s.now := rfl
@[simp] theorem modKs_grade (f : KeyStore → KeyStore) (s : State) : (modKs f s).grade = s.grade := rfl
@[simp] theorem modKs_lean (f : KeyStore → KeyStore) (s : State) : (modKs f s).lean = s.lean := rfl
@[simp] theorem modKs_cores (f : KeyStore → KeyStore) (s : State) : (modKs f s).cores = s.cores := rfl
@[simp] theorem modKs_pairs (f : KeyStore → KeyStore) (s : State) : (modKs f s).pairs = s.pairs := rfl
@[simp] theorem modKs_mem (f : KeyStore → KeyStore) (s : State) : (modKs f s).mem = s.mem := rfl
@[simp] theorem modKs_tags (f : KeyStore → KeyStore) (s : State) : (modKs f s).tags = s.tags := rfl
@[simp] theorem modKs_fkeys (f : KeyStore → KeyStore) (s : State) : (modKs f s).fkeys = s.fkeys := rfl
@[simp] theorem modKs_keyActs (f : KeyStore → KeyStore) (s : State) : (modKs f s).keyActs = s.keyActs := rfl
@[simp] theorem modKs_eccBad (f : KeyStore → KeyStore) (s : State) : (modKs f s).eccBad = s.eccBad := rfl
@[simp] theorem modKs_cfg (f : KeyStore → KeyStore) (s : State) : (modKs f s).cfg = s.cfg := rfl
@[simp] theorem modKs_slath (f : KeyStore → KeyStore) (s : State) : (modKs f s).slath = s.slath := rfl
@[simp] theorem modKs_ev (f : KeyStore → KeyStore) (s : State) : (modKs f s).ev = s.ev := rfl
@[simp] theorem modKs_engines (f : KeyStore → KeyStore) (s : State) : (modKs f s).engines = s.engines := rfl
@[simp] theorem modKs_drbg (f : KeyStore → KeyStore) (s : State) : (modKs f s).drbg = s.drbg := rfl
@[simp] theorem modKs_jn (f : KeyStore → KeyStore) (s : State) : (modKs f s).jn = s.jn := rfl
@[simp] theorem modKs_headSlots (f : KeyStore → KeyStore) (s : State) : (modKs f s).headSlots = s.headSlots := rfl
@[simp] theorem modKs_link (f : KeyStore → KeyStore) (s : State) : (modKs f s).link = s.link := rfl
@[simp] theorem modKs_mov (f : KeyStore → KeyStore) (s : State) : (modKs f s).mov = s.mov := rfl
@[simp] theorem modKs_pw (f : KeyStore → KeyStore) (s : State) : (modKs f s).pw = s.pw := rfl
@[simp] theorem modKs_sb (f : KeyStore → KeyStore) (s : State) : (modKs f s).sb = s.sb := rfl
@[simp] theorem modKs_free (f : KeyStore → KeyStore) (s : State) : (modKs f s).free = s.free := rfl
@[simp] theorem modKs_pending (f : KeyStore → KeyStore) (s : State) : (modKs f s).pending = s.pending := rfl
@[simp] theorem modKs_core (f : KeyStore → KeyStore) (s : State) (j : CoreId) : (modKs f s).core j = s.core j := rfl
@[simp] theorem modKs_ks (f : KeyStore → KeyStore) (s : State) : (modKs f s).ks = f s.ks := rfl

@[simp] theorem modJn_now (f : Journal → Journal) (s : State) : (modJn f s).now = s.now := rfl
@[simp] theorem modJn_grade (f : Journal → Journal) (s : State) : (modJn f s).grade = s.grade := rfl
@[simp] theorem modJn_lean (f : Journal → Journal) (s : State) : (modJn f s).lean = s.lean := rfl
@[simp] theorem modJn_cores (f : Journal → Journal) (s : State) : (modJn f s).cores = s.cores := rfl
@[simp] theorem modJn_pairs (f : Journal → Journal) (s : State) : (modJn f s).pairs = s.pairs := rfl
@[simp] theorem modJn_mem (f : Journal → Journal) (s : State) : (modJn f s).mem = s.mem := rfl
@[simp] theorem modJn_tags (f : Journal → Journal) (s : State) : (modJn f s).tags = s.tags := rfl
@[simp] theorem modJn_fkeys (f : Journal → Journal) (s : State) : (modJn f s).fkeys = s.fkeys := rfl
@[simp] theorem modJn_keyActs (f : Journal → Journal) (s : State) : (modJn f s).keyActs = s.keyActs := rfl
@[simp] theorem modJn_eccBad (f : Journal → Journal) (s : State) : (modJn f s).eccBad = s.eccBad := rfl
@[simp] theorem modJn_cfg (f : Journal → Journal) (s : State) : (modJn f s).cfg = s.cfg := rfl
@[simp] theorem modJn_slath (f : Journal → Journal) (s : State) : (modJn f s).slath = s.slath := rfl
@[simp] theorem modJn_ev (f : Journal → Journal) (s : State) : (modJn f s).ev = s.ev := rfl
@[simp] theorem modJn_engines (f : Journal → Journal) (s : State) : (modJn f s).engines = s.engines := rfl
@[simp] theorem modJn_ks (f : Journal → Journal) (s : State) : (modJn f s).ks = s.ks := rfl
@[simp] theorem modJn_drbg (f : Journal → Journal) (s : State) : (modJn f s).drbg = s.drbg := rfl
@[simp] theorem modJn_headSlots (f : Journal → Journal) (s : State) : (modJn f s).headSlots = s.headSlots := rfl
@[simp] theorem modJn_link (f : Journal → Journal) (s : State) : (modJn f s).link = s.link := rfl
@[simp] theorem modJn_mov (f : Journal → Journal) (s : State) : (modJn f s).mov = s.mov := rfl
@[simp] theorem modJn_pw (f : Journal → Journal) (s : State) : (modJn f s).pw = s.pw := rfl
@[simp] theorem modJn_sb (f : Journal → Journal) (s : State) : (modJn f s).sb = s.sb := rfl
@[simp] theorem modJn_free (f : Journal → Journal) (s : State) : (modJn f s).free = s.free := rfl
@[simp] theorem modJn_pending (f : Journal → Journal) (s : State) : (modJn f s).pending = s.pending := rfl
@[simp] theorem modJn_core (f : Journal → Journal) (s : State) (j : CoreId) : (modJn f s).core j = s.core j := rfl
@[simp] theorem modJn_jn (f : Journal → Journal) (s : State) : (modJn f s).jn = f s.jn := rfl

@[simp] theorem modPw_now (f : Power → Power) (s : State) : (modPw f s).now = s.now := rfl
@[simp] theorem modPw_grade (f : Power → Power) (s : State) : (modPw f s).grade = s.grade := rfl
@[simp] theorem modPw_lean (f : Power → Power) (s : State) : (modPw f s).lean = s.lean := rfl
@[simp] theorem modPw_cores (f : Power → Power) (s : State) : (modPw f s).cores = s.cores := rfl
@[simp] theorem modPw_pairs (f : Power → Power) (s : State) : (modPw f s).pairs = s.pairs := rfl
@[simp] theorem modPw_mem (f : Power → Power) (s : State) : (modPw f s).mem = s.mem := rfl
@[simp] theorem modPw_tags (f : Power → Power) (s : State) : (modPw f s).tags = s.tags := rfl
@[simp] theorem modPw_fkeys (f : Power → Power) (s : State) : (modPw f s).fkeys = s.fkeys := rfl
@[simp] theorem modPw_keyActs (f : Power → Power) (s : State) : (modPw f s).keyActs = s.keyActs := rfl
@[simp] theorem modPw_eccBad (f : Power → Power) (s : State) : (modPw f s).eccBad = s.eccBad := rfl
@[simp] theorem modPw_cfg (f : Power → Power) (s : State) : (modPw f s).cfg = s.cfg := rfl
@[simp] theorem modPw_slath (f : Power → Power) (s : State) : (modPw f s).slath = s.slath := rfl
@[simp] theorem modPw_ev (f : Power → Power) (s : State) : (modPw f s).ev = s.ev := rfl
@[simp] theorem modPw_engines (f : Power → Power) (s : State) : (modPw f s).engines = s.engines := rfl
@[simp] theorem modPw_ks (f : Power → Power) (s : State) : (modPw f s).ks = s.ks := rfl
@[simp] theorem modPw_drbg (f : Power → Power) (s : State) : (modPw f s).drbg = s.drbg := rfl
@[simp] theorem modPw_jn (f : Power → Power) (s : State) : (modPw f s).jn = s.jn := rfl
@[simp] theorem modPw_headSlots (f : Power → Power) (s : State) : (modPw f s).headSlots = s.headSlots := rfl
@[simp] theorem modPw_link (f : Power → Power) (s : State) : (modPw f s).link = s.link := rfl
@[simp] theorem modPw_mov (f : Power → Power) (s : State) : (modPw f s).mov = s.mov := rfl
@[simp] theorem modPw_sb (f : Power → Power) (s : State) : (modPw f s).sb = s.sb := rfl
@[simp] theorem modPw_free (f : Power → Power) (s : State) : (modPw f s).free = s.free := rfl
@[simp] theorem modPw_pending (f : Power → Power) (s : State) : (modPw f s).pending = s.pending := rfl
@[simp] theorem modPw_core (f : Power → Power) (s : State) (j : CoreId) : (modPw f s).core j = s.core j := rfl
@[simp] theorem modPw_pw (f : Power → Power) (s : State) : (modPw f s).pw = f s.pw := rfl

@[simp] theorem modSb_now (f : Sideband → Sideband) (s : State) : (modSb f s).now = s.now := rfl
@[simp] theorem modSb_grade (f : Sideband → Sideband) (s : State) : (modSb f s).grade = s.grade := rfl
@[simp] theorem modSb_lean (f : Sideband → Sideband) (s : State) : (modSb f s).lean = s.lean := rfl
@[simp] theorem modSb_cores (f : Sideband → Sideband) (s : State) : (modSb f s).cores = s.cores := rfl
@[simp] theorem modSb_pairs (f : Sideband → Sideband) (s : State) : (modSb f s).pairs = s.pairs := rfl
@[simp] theorem modSb_mem (f : Sideband → Sideband) (s : State) : (modSb f s).mem = s.mem := rfl
@[simp] theorem modSb_tags (f : Sideband → Sideband) (s : State) : (modSb f s).tags = s.tags := rfl
@[simp] theorem modSb_fkeys (f : Sideband → Sideband) (s : State) : (modSb f s).fkeys = s.fkeys := rfl
@[simp] theorem modSb_keyActs (f : Sideband → Sideband) (s : State) : (modSb f s).keyActs = s.keyActs := rfl
@[simp] theorem modSb_eccBad (f : Sideband → Sideband) (s : State) : (modSb f s).eccBad = s.eccBad := rfl
@[simp] theorem modSb_cfg (f : Sideband → Sideband) (s : State) : (modSb f s).cfg = s.cfg := rfl
@[simp] theorem modSb_slath (f : Sideband → Sideband) (s : State) : (modSb f s).slath = s.slath := rfl
@[simp] theorem modSb_ev (f : Sideband → Sideband) (s : State) : (modSb f s).ev = s.ev := rfl
@[simp] theorem modSb_engines (f : Sideband → Sideband) (s : State) : (modSb f s).engines = s.engines := rfl
@[simp] theorem modSb_ks (f : Sideband → Sideband) (s : State) : (modSb f s).ks = s.ks := rfl
@[simp] theorem modSb_drbg (f : Sideband → Sideband) (s : State) : (modSb f s).drbg = s.drbg := rfl
@[simp] theorem modSb_jn (f : Sideband → Sideband) (s : State) : (modSb f s).jn = s.jn := rfl
@[simp] theorem modSb_headSlots (f : Sideband → Sideband) (s : State) : (modSb f s).headSlots = s.headSlots := rfl
@[simp] theorem modSb_link (f : Sideband → Sideband) (s : State) : (modSb f s).link = s.link := rfl
@[simp] theorem modSb_mov (f : Sideband → Sideband) (s : State) : (modSb f s).mov = s.mov := rfl
@[simp] theorem modSb_pw (f : Sideband → Sideband) (s : State) : (modSb f s).pw = s.pw := rfl
@[simp] theorem modSb_free (f : Sideband → Sideband) (s : State) : (modSb f s).free = s.free := rfl
@[simp] theorem modSb_pending (f : Sideband → Sideband) (s : State) : (modSb f s).pending = s.pending := rfl
@[simp] theorem modSb_core (f : Sideband → Sideband) (s : State) (j : CoreId) : (modSb f s).core j = s.core j := rfl
@[simp] theorem modSb_sb (f : Sideband → Sideband) (s : State) : (modSb f s).sb = f s.sb := rfl

@[simp] theorem modSlath_now (f : Slath → Slath) (s : State) : (modSlath f s).now = s.now := rfl
@[simp] theorem modSlath_grade (f : Slath → Slath) (s : State) : (modSlath f s).grade = s.grade := rfl
@[simp] theorem modSlath_lean (f : Slath → Slath) (s : State) : (modSlath f s).lean = s.lean := rfl
@[simp] theorem modSlath_cores (f : Slath → Slath) (s : State) : (modSlath f s).cores = s.cores := rfl
@[simp] theorem modSlath_pairs (f : Slath → Slath) (s : State) : (modSlath f s).pairs = s.pairs := rfl
@[simp] theorem modSlath_mem (f : Slath → Slath) (s : State) : (modSlath f s).mem = s.mem := rfl
@[simp] theorem modSlath_tags (f : Slath → Slath) (s : State) : (modSlath f s).tags = s.tags := rfl
@[simp] theorem modSlath_fkeys (f : Slath → Slath) (s : State) : (modSlath f s).fkeys = s.fkeys := rfl
@[simp] theorem modSlath_keyActs (f : Slath → Slath) (s : State) : (modSlath f s).keyActs = s.keyActs := rfl
@[simp] theorem modSlath_eccBad (f : Slath → Slath) (s : State) : (modSlath f s).eccBad = s.eccBad := rfl
@[simp] theorem modSlath_cfg (f : Slath → Slath) (s : State) : (modSlath f s).cfg = s.cfg := rfl
@[simp] theorem modSlath_ev (f : Slath → Slath) (s : State) : (modSlath f s).ev = s.ev := rfl
@[simp] theorem modSlath_engines (f : Slath → Slath) (s : State) : (modSlath f s).engines = s.engines := rfl
@[simp] theorem modSlath_ks (f : Slath → Slath) (s : State) : (modSlath f s).ks = s.ks := rfl
@[simp] theorem modSlath_drbg (f : Slath → Slath) (s : State) : (modSlath f s).drbg = s.drbg := rfl
@[simp] theorem modSlath_jn (f : Slath → Slath) (s : State) : (modSlath f s).jn = s.jn := rfl
@[simp] theorem modSlath_headSlots (f : Slath → Slath) (s : State) : (modSlath f s).headSlots = s.headSlots := rfl
@[simp] theorem modSlath_link (f : Slath → Slath) (s : State) : (modSlath f s).link = s.link := rfl
@[simp] theorem modSlath_mov (f : Slath → Slath) (s : State) : (modSlath f s).mov = s.mov := rfl
@[simp] theorem modSlath_pw (f : Slath → Slath) (s : State) : (modSlath f s).pw = s.pw := rfl
@[simp] theorem modSlath_sb (f : Slath → Slath) (s : State) : (modSlath f s).sb = s.sb := rfl
@[simp] theorem modSlath_free (f : Slath → Slath) (s : State) : (modSlath f s).free = s.free := rfl
@[simp] theorem modSlath_pending (f : Slath → Slath) (s : State) : (modSlath f s).pending = s.pending := rfl
@[simp] theorem modSlath_core (f : Slath → Slath) (s : State) (j : CoreId) : (modSlath f s).core j = s.core j := rfl
@[simp] theorem modSlath_slath (f : Slath → Slath) (s : State) : (modSlath f s).slath = f s.slath := rfl

@[simp] theorem modLoader_now (f : Loader → Loader) (s : State) : (modLoader f s).now = s.now := rfl
@[simp] theorem modLoader_grade (f : Loader → Loader) (s : State) : (modLoader f s).grade = s.grade := rfl
@[simp] theorem modLoader_lean (f : Loader → Loader) (s : State) : (modLoader f s).lean = s.lean := rfl
@[simp] theorem modLoader_cores (f : Loader → Loader) (s : State) : (modLoader f s).cores = s.cores := rfl
@[simp] theorem modLoader_pairs (f : Loader → Loader) (s : State) : (modLoader f s).pairs = s.pairs := rfl
@[simp] theorem modLoader_mem (f : Loader → Loader) (s : State) : (modLoader f s).mem = s.mem := rfl
@[simp] theorem modLoader_tags (f : Loader → Loader) (s : State) : (modLoader f s).tags = s.tags := rfl
@[simp] theorem modLoader_fkeys (f : Loader → Loader) (s : State) : (modLoader f s).fkeys = s.fkeys := rfl
@[simp] theorem modLoader_keyActs (f : Loader → Loader) (s : State) : (modLoader f s).keyActs = s.keyActs := rfl
@[simp] theorem modLoader_eccBad (f : Loader → Loader) (s : State) : (modLoader f s).eccBad = s.eccBad := rfl
@[simp] theorem modLoader_slath (f : Loader → Loader) (s : State) : (modLoader f s).slath = s.slath := rfl
@[simp] theorem modLoader_ev (f : Loader → Loader) (s : State) : (modLoader f s).ev = s.ev := rfl
@[simp] theorem modLoader_engines (f : Loader → Loader) (s : State) : (modLoader f s).engines = s.engines := rfl
@[simp] theorem modLoader_ks (f : Loader → Loader) (s : State) : (modLoader f s).ks = s.ks := rfl
@[simp] theorem modLoader_drbg (f : Loader → Loader) (s : State) : (modLoader f s).drbg = s.drbg := rfl
@[simp] theorem modLoader_jn (f : Loader → Loader) (s : State) : (modLoader f s).jn = s.jn := rfl
@[simp] theorem modLoader_headSlots (f : Loader → Loader) (s : State) : (modLoader f s).headSlots = s.headSlots := rfl
@[simp] theorem modLoader_link (f : Loader → Loader) (s : State) : (modLoader f s).link = s.link := rfl
@[simp] theorem modLoader_mov (f : Loader → Loader) (s : State) : (modLoader f s).mov = s.mov := rfl
@[simp] theorem modLoader_pw (f : Loader → Loader) (s : State) : (modLoader f s).pw = s.pw := rfl
@[simp] theorem modLoader_sb (f : Loader → Loader) (s : State) : (modLoader f s).sb = s.sb := rfl
@[simp] theorem modLoader_free (f : Loader → Loader) (s : State) : (modLoader f s).free = s.free := rfl
@[simp] theorem modLoader_pending (f : Loader → Loader) (s : State) : (modLoader f s).pending = s.pending := rfl
@[simp] theorem modLoader_core (f : Loader → Loader) (s : State) (j : CoreId) : (modLoader f s).core j = s.core j := rfl

@[simp] theorem modCh_now (ch : ChannelId) (f : Channel → Channel) (s : State) : (modCh ch f s).now = s.now := rfl
@[simp] theorem modCh_grade (ch : ChannelId) (f : Channel → Channel) (s : State) : (modCh ch f s).grade = s.grade := rfl
@[simp] theorem modCh_lean (ch : ChannelId) (f : Channel → Channel) (s : State) : (modCh ch f s).lean = s.lean := rfl
@[simp] theorem modCh_cores (ch : ChannelId) (f : Channel → Channel) (s : State) : (modCh ch f s).cores = s.cores := rfl
@[simp] theorem modCh_pairs (ch : ChannelId) (f : Channel → Channel) (s : State) : (modCh ch f s).pairs = s.pairs := rfl
@[simp] theorem modCh_mem (ch : ChannelId) (f : Channel → Channel) (s : State) : (modCh ch f s).mem = s.mem := rfl
@[simp] theorem modCh_tags (ch : ChannelId) (f : Channel → Channel) (s : State) : (modCh ch f s).tags = s.tags := rfl
@[simp] theorem modCh_fkeys (ch : ChannelId) (f : Channel → Channel) (s : State) : (modCh ch f s).fkeys = s.fkeys := rfl
@[simp] theorem modCh_keyActs (ch : ChannelId) (f : Channel → Channel) (s : State) : (modCh ch f s).keyActs = s.keyActs := rfl
@[simp] theorem modCh_eccBad (ch : ChannelId) (f : Channel → Channel) (s : State) : (modCh ch f s).eccBad = s.eccBad := rfl
@[simp] theorem modCh_cfg (ch : ChannelId) (f : Channel → Channel) (s : State) : (modCh ch f s).cfg = s.cfg := rfl
@[simp] theorem modCh_slath (ch : ChannelId) (f : Channel → Channel) (s : State) : (modCh ch f s).slath = s.slath := rfl
@[simp] theorem modCh_ev (ch : ChannelId) (f : Channel → Channel) (s : State) : (modCh ch f s).ev = s.ev := rfl
@[simp] theorem modCh_engines (ch : ChannelId) (f : Channel → Channel) (s : State) : (modCh ch f s).engines = s.engines := rfl
@[simp] theorem modCh_ks (ch : ChannelId) (f : Channel → Channel) (s : State) : (modCh ch f s).ks = s.ks := rfl
@[simp] theorem modCh_drbg (ch : ChannelId) (f : Channel → Channel) (s : State) : (modCh ch f s).drbg = s.drbg := rfl
@[simp] theorem modCh_jn (ch : ChannelId) (f : Channel → Channel) (s : State) : (modCh ch f s).jn = s.jn := rfl
@[simp] theorem modCh_headSlots (ch : ChannelId) (f : Channel → Channel) (s : State) : (modCh ch f s).headSlots = s.headSlots := rfl
@[simp] theorem modCh_link (ch : ChannelId) (f : Channel → Channel) (s : State) : (modCh ch f s).link = s.link := rfl
@[simp] theorem modCh_pw (ch : ChannelId) (f : Channel → Channel) (s : State) : (modCh ch f s).pw = s.pw := rfl
@[simp] theorem modCh_sb (ch : ChannelId) (f : Channel → Channel) (s : State) : (modCh ch f s).sb = s.sb := rfl
@[simp] theorem modCh_free (ch : ChannelId) (f : Channel → Channel) (s : State) : (modCh ch f s).free = s.free := rfl
@[simp] theorem modCh_pending (ch : ChannelId) (f : Channel → Channel) (s : State) : (modCh ch f s).pending = s.pending := rfl
@[simp] theorem modCh_core (ch : ChannelId) (f : Channel → Channel) (s : State) (j : CoreId) : (modCh ch f s).core j = s.core j := rfl

@[simp] theorem modStack_now (k : StackId) (f : Stack → Stack) (s : State) : (modStack k f s).now = s.now := rfl
@[simp] theorem modStack_grade (k : StackId) (f : Stack → Stack) (s : State) : (modStack k f s).grade = s.grade := rfl
@[simp] theorem modStack_lean (k : StackId) (f : Stack → Stack) (s : State) : (modStack k f s).lean = s.lean := rfl
@[simp] theorem modStack_cores (k : StackId) (f : Stack → Stack) (s : State) : (modStack k f s).cores = s.cores := rfl
@[simp] theorem modStack_pairs (k : StackId) (f : Stack → Stack) (s : State) : (modStack k f s).pairs = s.pairs := rfl
@[simp] theorem modStack_mem (k : StackId) (f : Stack → Stack) (s : State) : (modStack k f s).mem = s.mem := rfl
@[simp] theorem modStack_tags (k : StackId) (f : Stack → Stack) (s : State) : (modStack k f s).tags = s.tags := rfl
@[simp] theorem modStack_fkeys (k : StackId) (f : Stack → Stack) (s : State) : (modStack k f s).fkeys = s.fkeys := rfl
@[simp] theorem modStack_keyActs (k : StackId) (f : Stack → Stack) (s : State) : (modStack k f s).keyActs = s.keyActs := rfl
@[simp] theorem modStack_eccBad (k : StackId) (f : Stack → Stack) (s : State) : (modStack k f s).eccBad = s.eccBad := rfl
@[simp] theorem modStack_cfg (k : StackId) (f : Stack → Stack) (s : State) : (modStack k f s).cfg = s.cfg := rfl
@[simp] theorem modStack_slath (k : StackId) (f : Stack → Stack) (s : State) : (modStack k f s).slath = s.slath := rfl
@[simp] theorem modStack_ev (k : StackId) (f : Stack → Stack) (s : State) : (modStack k f s).ev = s.ev := rfl
@[simp] theorem modStack_engines (k : StackId) (f : Stack → Stack) (s : State) : (modStack k f s).engines = s.engines := rfl
@[simp] theorem modStack_ks (k : StackId) (f : Stack → Stack) (s : State) : (modStack k f s).ks = s.ks := rfl
@[simp] theorem modStack_drbg (k : StackId) (f : Stack → Stack) (s : State) : (modStack k f s).drbg = s.drbg := rfl
@[simp] theorem modStack_jn (k : StackId) (f : Stack → Stack) (s : State) : (modStack k f s).jn = s.jn := rfl
@[simp] theorem modStack_headSlots (k : StackId) (f : Stack → Stack) (s : State) : (modStack k f s).headSlots = s.headSlots := rfl
@[simp] theorem modStack_link (k : StackId) (f : Stack → Stack) (s : State) : (modStack k f s).link = s.link := rfl
@[simp] theorem modStack_pw (k : StackId) (f : Stack → Stack) (s : State) : (modStack k f s).pw = s.pw := rfl
@[simp] theorem modStack_sb (k : StackId) (f : Stack → Stack) (s : State) : (modStack k f s).sb = s.sb := rfl
@[simp] theorem modStack_free (k : StackId) (f : Stack → Stack) (s : State) : (modStack k f s).free = s.free := rfl
@[simp] theorem modStack_pending (k : StackId) (f : Stack → Stack) (s : State) : (modStack k f s).pending = s.pending := rfl
@[simp] theorem modStack_core (k : StackId) (f : Stack → Stack) (s : State) (j : CoreId) : (modStack k f s).core j = s.core j := rfl

@[simp] theorem modRing_now (r : RingId) (f : Ring → Ring) (s : State) : (modRing r f s).now = s.now := rfl
@[simp] theorem modRing_grade (r : RingId) (f : Ring → Ring) (s : State) : (modRing r f s).grade = s.grade := rfl
@[simp] theorem modRing_lean (r : RingId) (f : Ring → Ring) (s : State) : (modRing r f s).lean = s.lean := rfl
@[simp] theorem modRing_cores (r : RingId) (f : Ring → Ring) (s : State) : (modRing r f s).cores = s.cores := rfl
@[simp] theorem modRing_pairs (r : RingId) (f : Ring → Ring) (s : State) : (modRing r f s).pairs = s.pairs := rfl
@[simp] theorem modRing_mem (r : RingId) (f : Ring → Ring) (s : State) : (modRing r f s).mem = s.mem := rfl
@[simp] theorem modRing_tags (r : RingId) (f : Ring → Ring) (s : State) : (modRing r f s).tags = s.tags := rfl
@[simp] theorem modRing_fkeys (r : RingId) (f : Ring → Ring) (s : State) : (modRing r f s).fkeys = s.fkeys := rfl
@[simp] theorem modRing_keyActs (r : RingId) (f : Ring → Ring) (s : State) : (modRing r f s).keyActs = s.keyActs := rfl
@[simp] theorem modRing_eccBad (r : RingId) (f : Ring → Ring) (s : State) : (modRing r f s).eccBad = s.eccBad := rfl
@[simp] theorem modRing_cfg (r : RingId) (f : Ring → Ring) (s : State) : (modRing r f s).cfg = s.cfg := rfl
@[simp] theorem modRing_slath (r : RingId) (f : Ring → Ring) (s : State) : (modRing r f s).slath = s.slath := rfl
@[simp] theorem modRing_ev (r : RingId) (f : Ring → Ring) (s : State) : (modRing r f s).ev = s.ev := rfl
@[simp] theorem modRing_engines (r : RingId) (f : Ring → Ring) (s : State) : (modRing r f s).engines = s.engines := rfl
@[simp] theorem modRing_ks (r : RingId) (f : Ring → Ring) (s : State) : (modRing r f s).ks = s.ks := rfl
@[simp] theorem modRing_drbg (r : RingId) (f : Ring → Ring) (s : State) : (modRing r f s).drbg = s.drbg := rfl
@[simp] theorem modRing_jn (r : RingId) (f : Ring → Ring) (s : State) : (modRing r f s).jn = s.jn := rfl
@[simp] theorem modRing_headSlots (r : RingId) (f : Ring → Ring) (s : State) : (modRing r f s).headSlots = s.headSlots := rfl
@[simp] theorem modRing_mov (r : RingId) (f : Ring → Ring) (s : State) : (modRing r f s).mov = s.mov := rfl
@[simp] theorem modRing_pw (r : RingId) (f : Ring → Ring) (s : State) : (modRing r f s).pw = s.pw := rfl
@[simp] theorem modRing_sb (r : RingId) (f : Ring → Ring) (s : State) : (modRing r f s).sb = s.sb := rfl
@[simp] theorem modRing_free (r : RingId) (f : Ring → Ring) (s : State) : (modRing r f s).free = s.free := rfl
@[simp] theorem modRing_pending (r : RingId) (f : Ring → Ring) (s : State) : (modRing r f s).pending = s.pending := rfl
@[simp] theorem modRing_core (r : RingId) (f : Ring → Ring) (s : State) (j : CoreId) : (modRing r f s).core j = s.core j := rfl

@[simp] theorem modEgress_now (x : EgressId) (f : Egress → Egress) (s : State) : (modEgress x f s).now = s.now := rfl
@[simp] theorem modEgress_grade (x : EgressId) (f : Egress → Egress) (s : State) : (modEgress x f s).grade = s.grade := rfl
@[simp] theorem modEgress_lean (x : EgressId) (f : Egress → Egress) (s : State) : (modEgress x f s).lean = s.lean := rfl
@[simp] theorem modEgress_cores (x : EgressId) (f : Egress → Egress) (s : State) : (modEgress x f s).cores = s.cores := rfl
@[simp] theorem modEgress_pairs (x : EgressId) (f : Egress → Egress) (s : State) : (modEgress x f s).pairs = s.pairs := rfl
@[simp] theorem modEgress_mem (x : EgressId) (f : Egress → Egress) (s : State) : (modEgress x f s).mem = s.mem := rfl
@[simp] theorem modEgress_tags (x : EgressId) (f : Egress → Egress) (s : State) : (modEgress x f s).tags = s.tags := rfl
@[simp] theorem modEgress_fkeys (x : EgressId) (f : Egress → Egress) (s : State) : (modEgress x f s).fkeys = s.fkeys := rfl
@[simp] theorem modEgress_keyActs (x : EgressId) (f : Egress → Egress) (s : State) : (modEgress x f s).keyActs = s.keyActs := rfl
@[simp] theorem modEgress_eccBad (x : EgressId) (f : Egress → Egress) (s : State) : (modEgress x f s).eccBad = s.eccBad := rfl
@[simp] theorem modEgress_cfg (x : EgressId) (f : Egress → Egress) (s : State) : (modEgress x f s).cfg = s.cfg := rfl
@[simp] theorem modEgress_slath (x : EgressId) (f : Egress → Egress) (s : State) : (modEgress x f s).slath = s.slath := rfl
@[simp] theorem modEgress_ev (x : EgressId) (f : Egress → Egress) (s : State) : (modEgress x f s).ev = s.ev := rfl
@[simp] theorem modEgress_engines (x : EgressId) (f : Egress → Egress) (s : State) : (modEgress x f s).engines = s.engines := rfl
@[simp] theorem modEgress_ks (x : EgressId) (f : Egress → Egress) (s : State) : (modEgress x f s).ks = s.ks := rfl
@[simp] theorem modEgress_drbg (x : EgressId) (f : Egress → Egress) (s : State) : (modEgress x f s).drbg = s.drbg := rfl
@[simp] theorem modEgress_jn (x : EgressId) (f : Egress → Egress) (s : State) : (modEgress x f s).jn = s.jn := rfl
@[simp] theorem modEgress_headSlots (x : EgressId) (f : Egress → Egress) (s : State) : (modEgress x f s).headSlots = s.headSlots := rfl
@[simp] theorem modEgress_mov (x : EgressId) (f : Egress → Egress) (s : State) : (modEgress x f s).mov = s.mov := rfl
@[simp] theorem modEgress_pw (x : EgressId) (f : Egress → Egress) (s : State) : (modEgress x f s).pw = s.pw := rfl
@[simp] theorem modEgress_sb (x : EgressId) (f : Egress → Egress) (s : State) : (modEgress x f s).sb = s.sb := rfl
@[simp] theorem modEgress_free (x : EgressId) (f : Egress → Egress) (s : State) : (modEgress x f s).free = s.free := rfl
@[simp] theorem modEgress_pending (x : EgressId) (f : Egress → Egress) (s : State) : (modEgress x f s).pending = s.pending := rfl
@[simp] theorem modEgress_core (x : EgressId) (f : Egress → Egress) (s : State) (j : CoreId) : (modEgress x f s).core j = s.core j := rfl

@[simp] theorem modTimer_now (c : CoreId) (f : Timer → Timer) (s : State) : (modTimer c f s).now = s.now := rfl
@[simp] theorem modTimer_grade (c : CoreId) (f : Timer → Timer) (s : State) : (modTimer c f s).grade = s.grade := rfl
@[simp] theorem modTimer_lean (c : CoreId) (f : Timer → Timer) (s : State) : (modTimer c f s).lean = s.lean := rfl
@[simp] theorem modTimer_cores (c : CoreId) (f : Timer → Timer) (s : State) : (modTimer c f s).cores = s.cores := rfl
@[simp] theorem modTimer_pairs (c : CoreId) (f : Timer → Timer) (s : State) : (modTimer c f s).pairs = s.pairs := rfl
@[simp] theorem modTimer_mem (c : CoreId) (f : Timer → Timer) (s : State) : (modTimer c f s).mem = s.mem := rfl
@[simp] theorem modTimer_tags (c : CoreId) (f : Timer → Timer) (s : State) : (modTimer c f s).tags = s.tags := rfl
@[simp] theorem modTimer_fkeys (c : CoreId) (f : Timer → Timer) (s : State) : (modTimer c f s).fkeys = s.fkeys := rfl
@[simp] theorem modTimer_keyActs (c : CoreId) (f : Timer → Timer) (s : State) : (modTimer c f s).keyActs = s.keyActs := rfl
@[simp] theorem modTimer_eccBad (c : CoreId) (f : Timer → Timer) (s : State) : (modTimer c f s).eccBad = s.eccBad := rfl
@[simp] theorem modTimer_cfg (c : CoreId) (f : Timer → Timer) (s : State) : (modTimer c f s).cfg = s.cfg := rfl
@[simp] theorem modTimer_slath (c : CoreId) (f : Timer → Timer) (s : State) : (modTimer c f s).slath = s.slath := rfl
@[simp] theorem modTimer_engines (c : CoreId) (f : Timer → Timer) (s : State) : (modTimer c f s).engines = s.engines := rfl
@[simp] theorem modTimer_ks (c : CoreId) (f : Timer → Timer) (s : State) : (modTimer c f s).ks = s.ks := rfl
@[simp] theorem modTimer_drbg (c : CoreId) (f : Timer → Timer) (s : State) : (modTimer c f s).drbg = s.drbg := rfl
@[simp] theorem modTimer_jn (c : CoreId) (f : Timer → Timer) (s : State) : (modTimer c f s).jn = s.jn := rfl
@[simp] theorem modTimer_headSlots (c : CoreId) (f : Timer → Timer) (s : State) : (modTimer c f s).headSlots = s.headSlots := rfl
@[simp] theorem modTimer_link (c : CoreId) (f : Timer → Timer) (s : State) : (modTimer c f s).link = s.link := rfl
@[simp] theorem modTimer_mov (c : CoreId) (f : Timer → Timer) (s : State) : (modTimer c f s).mov = s.mov := rfl
@[simp] theorem modTimer_pw (c : CoreId) (f : Timer → Timer) (s : State) : (modTimer c f s).pw = s.pw := rfl
@[simp] theorem modTimer_sb (c : CoreId) (f : Timer → Timer) (s : State) : (modTimer c f s).sb = s.sb := rfl
@[simp] theorem modTimer_free (c : CoreId) (f : Timer → Timer) (s : State) : (modTimer c f s).free = s.free := rfl
@[simp] theorem modTimer_pending (c : CoreId) (f : Timer → Timer) (s : State) : (modTimer c f s).pending = s.pending := rfl
@[simp] theorem modTimer_core (c : CoreId) (f : Timer → Timer) (s : State) (j : CoreId) : (modTimer c f s).core j = s.core j := rfl

@[simp] theorem modPair_core (s : State) (n : PairId) (f : Pair → Pair) (j : CoreId) : (s.modPair n f).core j = s.core j := rfl

end Sys2Proof.Machine
end

