-- ==== Sys2Proof/Laws/Memory.lean ====
section
/-! SUPPORT. What the memory operations do: a byte written is read back, every other byte stays, and the canonical form is
kept. -/
namespace Sys2Proof.Machine

/-! ## One byte -/

/-- A byte written leaves every other byte as it was. -/
theorem memGet_memSet_ne (m : List Host.Cell) {a x : Nat} (b : Byte) (h : x ≠ a) : memGet (memSet m a b) x = memGet m x := by
  induction m with
  | nil => simp only [memSet]; split <;> simp [memGet, h]
  | cons p r ih =>
    obtain ⟨k, y⟩ := p
    simp only [memSet]
    split
    · split <;> simp [memGet, h]
    · split
      · rename_i hk
        split <;> simp [memGet, h, ← hk]
      · simp only [memGet, ih]

/-- Below the first address that a canonical memory lists every byte reads 0x00. -/
theorem memGet_below {m : List Host.Cell} {lo a : Nat} (hw : memWfFrom lo m = true) (h : a < lo) : memGet m a = 0 := by
  induction m generalizing lo with
  | nil => rfl
  | cons p r ih =>
    obtain ⟨k, y⟩ := p
    simp only [memWfFrom, Bool.and_eq_true, decide_eq_true_eq] at hw
    have hk : a ≠ k := by omega
    simp only [memGet, hk, ↓reduceIte]
    exact ih hw.2 (by omega)

/-- A byte written to a canonical memory is read back. -/
theorem memGet_memSet_self {m : List Host.Cell} {lo : Nat} (hw : memWfFrom lo m = true) (a : Nat) (b : Byte) :
    memGet (memSet m a b) a = b := by
  induction m generalizing lo with
  | nil => simp only [memSet]; split <;> simp_all [memGet]
  | cons p r ih =>
    obtain ⟨k, y⟩ := p
    simp only [memWfFrom, Bool.and_eq_true, decide_eq_true_eq] at hw
    obtain ⟨⟨h1, h2⟩, h3⟩ := hw
    simp only [memSet]
    split
    · rename_i hk
      split
      · rename_i hb
        simp only [memGet, show a ≠ k by omega, ↓reduceIte, hb]
        exact memGet_below h3 (by omega)
      · simp [memGet]
    · split
      · rename_i hk
        split
        · rename_i hb
          rw [hb]; exact memGet_below h3 (by omega)
        · simp [memGet]
      · rename_i hk
        simp only [memGet, hk, ↓reduceIte]
        exact ih h3

/-- A canonical memory is canonical from any lower bound on. -/
theorem memWfFrom_mono {m : List Host.Cell} {lo hi : Nat} (h : lo ≤ hi) (hw : memWfFrom hi m = true) :
    memWfFrom lo m = true := by
  cases m with
  | nil => rfl
  | cons p r =>
    obtain ⟨k, y⟩ := p
    simp only [memWfFrom, Bool.and_eq_true, decide_eq_true_eq] at hw ⊢
    exact ⟨⟨by omega, hw.1.2⟩, hw.2⟩

/-- A byte written keeps the canonical form. -/
theorem memSet_wfFrom {m : List Host.Cell} {lo a : Nat} (b : Byte) (ha : lo ≤ a) (hw : memWfFrom lo m = true) :
    memWfFrom lo (memSet m a b) = true := by
  induction m generalizing lo with
  | nil => simp only [memSet]; split <;> simp_all [memWfFrom]
  | cons p r ih =>
    obtain ⟨k, y⟩ := p
    have hw' := hw
    simp only [memWfFrom, Bool.and_eq_true, decide_eq_true_eq] at hw
    obtain ⟨⟨h1, h2⟩, h3⟩ := hw
    simp only [memSet]
    split
    · split
      · exact hw'
      · simp only [memWfFrom, Bool.and_eq_true, decide_eq_true_eq]
        exact ⟨⟨ha, by assumption⟩, ⟨by omega, h2⟩, h3⟩
    · split
      · split
        · exact memWfFrom_mono (by omega) h3
        · simp only [memWfFrom, Bool.and_eq_true, decide_eq_true_eq]
          exact ⟨⟨ha, by assumption⟩, memWfFrom_mono (by omega) h3⟩
      · simp only [memWfFrom, Bool.and_eq_true, decide_eq_true_eq]
        exact ⟨⟨h1, h2⟩, ih (by omega) h3⟩

/-- A byte written keeps the canonical form of a memory. -/
theorem memSet_wf {m : List Host.Cell} (a : Nat) (b : Byte) (hw : Memory.wf m = true) : Memory.wf (memSet m a b) = true :=
  memSet_wfFrom b (Nat.zero_le a) hw

/-! ## Several bytes -/

/-- Bytes written keep the canonical form. -/
theorem memWrite_wf {m : List Host.Cell} (a : Nat) (bs : List Byte) (hw : Memory.wf m = true) :
    Memory.wf (memWrite m a bs) = true := by
  induction bs generalizing m a with
  | nil => exact hw
  | cons b bs ih => exact ih (a + 1) (memSet_wf a b hw)

/-- Bytes written where present keep the canonical form. -/
theorem memWriteMasked_wf {m : List Host.Cell} (a : Nat) (bs : List (Option Byte)) (hw : Memory.wf m = true) :
    Memory.wf (memWriteMasked m a bs) = true := by
  induction bs generalizing m a with
  | nil => exact hw
  | cons b bs ih =>
    cases b with
    | none => exact ih (a + 1) hw
    | some b => exact ih (a + 1) (memSet_wf a b hw)

/-- A part of the cells of a canonical memory is canonical. -/
theorem filter_wfFrom {m : List Host.Cell} {lo : Nat} (p : Host.Cell → Bool) (hw : memWfFrom lo m = true) :
    memWfFrom lo (m.filter p) = true := by
  induction m generalizing lo with
  | nil => rfl
  | cons c r ih =>
    obtain ⟨k, y⟩ := c
    simp only [memWfFrom, Bool.and_eq_true, decide_eq_true_eq] at hw
    simp only [List.filter_cons]
    split
    · simp only [memWfFrom, Bool.and_eq_true, decide_eq_true_eq]
      exact ⟨hw.1, ih hw.2⟩
    · exact memWfFrom_mono (by omega) (ih hw.2)

/-- The same from address 0 on. -/
theorem filter_wf {m : List Host.Cell} (p : Host.Cell → Bool) (hw : Memory.wf m = true) : Memory.wf (m.filter p) = true :=
  filter_wfFrom p hw

/-- A byte outside those written reads as before. -/
theorem memGet_memWrite_ne (m : List Host.Cell) {a x : Nat} (bs : List Byte) (h : x < a ∨ a + bs.length ≤ x) :
    memGet (memWrite m a bs) x = memGet m x := by
  induction bs generalizing m a with
  | nil => rfl
  | cons b bs ih =>
    simp only [List.length_cons] at h
    rw [memWrite, ih _ (by omega), memGet_memSet_ne _ _ (by omega)]

/-! ## Tags -/

/-- A tag written keeps the canonical form. -/
theorem tagSet_canonical {s : State} (a : Nat) (t : Bool) (h : Canonical s) : Canonical (tagSet s a t) := by
  unfold tagSet
  split
  · exact ⟨memSet_wf _ _ h.1, h.2⟩
  · split <;> exact h

/-- Tags cleared keep the canonical form. -/
theorem clearTagsFrom_canonical {s : State} (a n : Nat) (h : Canonical s) : Canonical (clearTagsFrom s a n) := by
  induction n generalizing s a with
  | zero => exact h
  | succ n ih => exact ih (a + 16) (tagSet_canonical a false h)

/-- The same over the words that a range touches. -/
theorem clearTags_canonical {s : State} (a n : Nat) (h : Canonical s) : Canonical (clearTags s a n) := by
  unfold clearTags
  split
  · exact h
  · exact clearTagsFrom_canonical _ _ h

/-- A tag of a word outside attached memory is no byte of memory. -/
theorem tagSet_mem {s : State} {a : Nat} (t : Bool) (h : a < attBase) : (tagSet s a t).mem = s.mem := by
  unfold tagSet
  split
  · omega
  · split <;> rfl

/-- Tags cleared outside attached memory change no byte. -/
theorem clearTagsFrom_mem {s : State} {a n : Nat} (h : a + 16 * n ≤ attBase) : (clearTagsFrom s a n).mem = s.mem := by
  induction n generalizing s a with
  | zero => rfl
  | succ n ih =>
    rw [clearTagsFrom, ih (by omega), tagSet_mem _ (by omega)]

/-- The same over the words that a range touches. -/
theorem clearTags_mem {s : State} {a n : Nat} (h : a + n ≤ attBase) : (clearTags s a n).mem = s.mem := by
  unfold clearTags
  split
  · rfl
  · apply clearTagsFrom_mem
    unfold wordOf attBase at *
    omega

/-! ## Stores -/

/-- A fold of an operation that keeps the canonical form keeps it. -/
theorem foldl_canonical {α : Type} (f : State → α → State) (hf : ∀ s a, Canonical s → Canonical (f s a)) (l : List α)
    {s : State} (h : Canonical s) : Canonical (l.foldl f s) := by
  induction l generalizing s with
  | nil => exact h
  | cons a l ih => exact ih (hf s a h)

/-- Bytes put into memory keep the canonical form. -/
theorem putBytes_canonical {s : State} (a : Nat) (bs : List Byte) (h : Canonical s) : Canonical (putBytes s a bs) := by
  unfold putBytes
  split
  · exact h
  · exact ⟨memWrite_wf _ _ h.1, h.2⟩

/-- The memory after bytes are put into it. -/
theorem putBytes_mem (s : State) (a : Nat) (bs : List Byte) : (putBytes s a bs).mem = memWrite s.mem a bs := by
  unfold putBytes
  cases bs <;> rfl

/-- Bytes stored keep the canonical form. -/
theorem storeBytes_canonical {s : State} (a : Nat) (bs : List Byte) (h : Canonical s) : Canonical (storeBytes s a bs) :=
  clearTags_canonical _ _ (putBytes_canonical a bs h)

/-- The memory after a store outside attached memory. -/
theorem storeBytes_mem {s : State} {a : Nat} {bs : List Byte} (h : a + bs.length ≤ attBase) :
    (storeBytes s a bs).mem = memWrite s.mem a bs := by
  rw [storeBytes, clearTags_mem h, putBytes_mem]

/-- A capability stored keeps the canonical form. -/
theorem storeCap_canonical {s : State} (a : Nat) (v : TWord) (h : Canonical s) : Canonical (storeCap s a v) :=
  tagSet_canonical _ _ (putBytes_canonical _ _ h)

/-- Bytes stored where present keep the canonical form. -/
theorem storeMasked_canonical {s : State} (a : Nat) (bs : List (Option Byte)) (h : Canonical s) :
    Canonical (storeMasked s a bs) := by
  unfold storeMasked
  exact foldl_canonical _ (fun s i hs => tagSet_canonical _ _ hs) _ ⟨memWriteMasked_wf _ _ h.1, h.2⟩

/-! ## Keys -/

/-- A key byte written keeps the canonical form. -/
theorem setKeyByte_canonical {s : State} (a : Nat) (b : Byte) (h : Canonical s) : Canonical (setKeyByte s a b) := by
  unfold setKeyByte
  split
  · exact ⟨h.1, memSet_wf _ _ h.2⟩
  · exact ⟨memSet_wf _ _ h.1, h.2⟩
  · exact h

/-- A frame marked keeps the canonical form. -/
theorem markFrame_canonical {s : State} (a : Nat) (store : Bool) (h : Canonical s) : Canonical (markFrame s a store) := by
  have hk := setKeyByte_canonical a (keyByte s a ||| (if store then 0x60 else 0x20)) h
  unfold markFrame
  cases keyCell a with
  | none => exact hk
  | some p =>
    obtain ⟨g, f⟩ := p
    cases g with
    | false => exact hk
    | true => exact ⟨hk.1, hk.2⟩

/-- Frames marked keep the canonical form. -/
theorem markFrames_canonical {s : State} (a n : Nat) (store : Bool) (h : Canonical s) : Canonical (markFrames s a n store) := by
  apply foldl_canonical _ _ _ h
  intro s p hs
  split
  · exact markFrame_canonical _ _ hs
  · exact hs

/-- The key writes that are due keep the canonical form. -/
theorem settleKeys_canonical {s : State} (t : Nat) (h : Canonical s) : Canonical (settleKeys t s) := by
  unfold settleKeys
  apply foldl_canonical
  · intro s p hs
    obtain ⟨x, c, f, b⟩ := p
    exact ⟨hs.1, memSet_wf f b hs.2⟩
  · exact ⟨h.1, h.2⟩

end Sys2Proof.Machine
end

