-- ==== Sys2Proof/Laws/Frames.lean ====
section
/-! SUPPORT. Everything that the shared operations on events, messages and time can change, each said once. -/
namespace Sys2Proof.Machine

/-! ## Messages and raises -/

/-- The state with another event controller, its routing and timers as they were, and with other messages and pending bits. -/
def raised (s : State) (e : EventCtl) (o : List HostMsg) (p : Vector (BitVec 64) 65) : State :=
  let ev := { e with route := s.ev.route, host := s.ev.host, timers := s.ev.timers }
  { s with ev := ev, link := { s.link with out := o, msixPend := p } }

/-- What a raise can change: the event controller, the messages to the host and the pending bits of MSI-X. -/
def RaiseFrame (s u : State) : Prop := ∃ e o p, u = raised s e o p

/-- A message that is sent changes no other thing. -/
theorem RaiseFrame.refl (s : State) : RaiseFrame s s := ⟨s.ev, s.link.out, s.link.msixPend, rfl⟩

/-- The event controller changed, its routing and timers as they were. -/
theorem RaiseFrame.ofEv (s : State) (e : EventCtl) (h : e.route = s.ev.route ∧ e.host = s.ev.host ∧ e.timers = s.ev.timers) :
    RaiseFrame s { s with ev := e } :=
  ⟨e, s.link.out, s.link.msixPend, by simp [raised, ← h.1, ← h.2.1, ← h.2.2]⟩

/-- One after another, raises change no other thing. -/
theorem RaiseFrame.trans {s u w : State} (h : RaiseFrame s u) (h' : RaiseFrame u w) : RaiseFrame s w := by
  obtain ⟨e, o, p, rfl⟩ := h
  obtain ⟨e', o', p', rfl⟩ := h'
  exact ⟨e', o', p', rfl⟩

/-- A message to the host. -/
theorem hostSend_frame (m : HostMsg) (s : State) : RaiseFrame s (hostSend m s) :=
  ⟨s.ev, s.link.out ++ [m], s.link.msixPend, rfl⟩

/-- An MSI-X message sends one, or sets a pending bit. -/
theorem msixSend_frame (v : Nat) (s : State) : RaiseFrame s (msixSend v s) := by
  unfold msixSend
  dsimp only
  split
  · unfold setMsixPend
    split
    · exact ⟨s.ev, s.link.out, _, rfl⟩
    · exact RaiseFrame.refl s
  · exact hostSend_frame _ s

/-- A raise that reaches a list of cores is put among the acts of the event controller. -/
theorem raiseTo_frame (n : EventId) (r : Nat) (lvl : Bool) (cs : List CoreId) (s : State) :
    RaiseFrame s (raiseTo n r lvl cs s) := by
  unfold raiseTo
  induction cs generalizing s with
  | nil => exact RaiseFrame.refl s
  | cons c cs ih =>
    refine RaiseFrame.trans ?_ (ih _)
    dsimp only
    split
    · exact RaiseFrame.refl s
    · exact RaiseFrame.ofEv s _ ⟨rfl, rfl, rfl⟩

/-- A raise to one core changes the event controller alone. -/
theorem raiseOne_frame (n : EventId) (r : Nat) (s : State) : RaiseFrame s (raiseOne n r s) := by
  unfold raiseOne
  split
  · exact RaiseFrame.trans (RaiseFrame.ofEv s _ ⟨rfl, rfl, rfl⟩) (raiseTo_frame ..)
  · exact RaiseFrame.ofEv s _ ⟨rfl, rfl, rfl⟩

/-- A raise to the cores changes the event controller alone. -/
theorem raiseCores_frame (n : EventId) (r : Nat) (s : State) : RaiseFrame s (raiseCores n r s) := by
  unfold raiseCores
  split
  · exact raiseTo_frame ..
  · split
    · exact RaiseFrame.refl s
    · split
      · exact raiseTo_frame ..
      · exact raiseOne_frame ..

/-- A line that rises changes the event controller and what the host is told. -/
theorem rise_frame (n : EventId) (r : Nat) (s : State) : RaiseFrame s (rise n r s) := by
  unfold rise
  dsimp only
  split
  · exact RaiseFrame.trans (raiseCores_frame n r s) (msixSend_frame ..)
  · exact raiseCores_frame n r s

/-- The same for a line that a pulse source drives. -/
theorem raise_frame (n : EventId) (r : Nat) (s : State) : RaiseFrame s (raise n r s) := by
  unfold raise
  dsimp only
  refine RaiseFrame.trans (RaiseFrame.ofEv s { s.ev with lastPulse := s.ev.lastPulse.set n (max s.ev.lastPulse[n] (r + 2)) } ⟨rfl, rfl, rfl⟩) ?_
  split
  · exact RaiseFrame.refl _
  · split
    · split
      · exact raiseCores_frame ..
      · exact RaiseFrame.refl _
    · exact rise_frame ..

/-- The same for an event of a pulse source. -/
theorem pulse_frame (n : Nat) (s : State) : RaiseFrame s (pulse n s) := raise_frame ..

/-- A line that changes raises its event, and changes no other thing. -/
theorem setLine_frame (n : Nat) (b : Bool) (r : Nat) (s : State) : RaiseFrame s (setLine n b r s) := by
  unfold setLine
  split
  · exact RaiseFrame.refl s
  · dsimp only
    have h2 : RaiseFrame s { s with ev := { s.ev with line := putBit s.ev.line n b, levels := driveSpans (evNo n) b r s.ev.levels } } :=
      RaiseFrame.ofEv s _ ⟨rfl, rfl, rfl⟩
    split
    · split
      · split
        · exact RaiseFrame.trans h2 (msixSend_frame ..)
        · exact h2
      · exact RaiseFrame.trans h2 (rise_frame ..)
    · exact h2

/-! ## Time -/

/-- The state at another time, with other key acts, keys, cores, acts of the event controller, key store and marks of key bytes. -/
def settled (s : State) (n : Nat) (k : List (Nat × CoreId × Nat × Byte)) (f : List Host.Cell) (c : Vector Core 48)
    (e : EventCtl)
    (z : KeyStore) (b w : List (Nat × Nat)) : State :=
  let ev := { e with route := s.ev.route, host := s.ev.host, line := s.ev.line, timers := s.ev.timers }
  { s with now := n, keyActs := k, fkeys := f, cores := c, ev := ev, ks := z, keyBad := b, keySoft := w }

/-- What bringing the units up to a cycle can change: the time, the key acts that are due and the keys they write, whose errors
they end, the event controller, the event bits of cores, and a key store that is being zeroised. -/
def SettleFrame (s u : State) : Prop :=
  ∃ n k f c e z b w, u = settled s n k f c e z b w ∧ ∀ j : CoreId, ∃ p q, u.core j = { s.core j with evP := p, evS := q }

/-- Nothing changed is such a change. -/
theorem SettleFrame.refl (s : State) : SettleFrame s s :=
  ⟨s.now, s.keyActs, s.fkeys, s.cores, s.ev, s.ks, s.keyBad, s.keySoft, rfl, fun j => ⟨(s.core j).evP, (s.core j).evS, rfl⟩⟩

/-- The event controller changed, its routing, lines and timers as they were. -/
theorem SettleFrame.ofEv (s : State) (e : EventCtl)
    (h : e.route = s.ev.route ∧ e.host = s.ev.host ∧ e.line = s.ev.line ∧ e.timers = s.ev.timers) :
    SettleFrame s { s with ev := e } :=
  ⟨s.now, s.keyActs, s.fkeys, s.cores, e, s.ks, s.keyBad, s.keySoft, by simp [settled, ← h.1, ← h.2.1, ← h.2.2.1, ← h.2.2.2],
    fun j => ⟨(s.core j).evP, (s.core j).evS, rfl⟩⟩

/-- The time, the key acts and the keys changed. -/
theorem SettleFrame.ofKeys (s : State) (n : Nat) (k : List (Nat × CoreId × Nat × Byte)) (f : List Host.Cell)
    (b w : List (Nat × Nat)) : SettleFrame s { s with now := n, keyActs := k, fkeys := f, keyBad := b, keySoft := w } :=
  ⟨n, k, f, s.cores, s.ev, s.ks, b, w, rfl, fun j => ⟨(s.core j).evP, (s.core j).evS, rfl⟩⟩

/-- The key store changed. -/
theorem SettleFrame.ofStore (s : State) (z : KeyStore) : SettleFrame s { s with ks := z } :=
  ⟨s.now, s.keyActs, s.fkeys, s.cores, s.ev, z, s.keyBad, s.keySoft, rfl, fun j => ⟨(s.core j).evP, (s.core j).evS, rfl⟩⟩

/-- One after another they are such a change. -/
theorem SettleFrame.trans {s u w : State} (h : SettleFrame s u) (h' : SettleFrame u w) : SettleFrame s w := by
  obtain ⟨n, k, f, c, e, z, b, v, rfl, hc⟩ := h
  obtain ⟨n', k', f', c', e', z', b', v', rfl, hc'⟩ := h'
  refine ⟨n', k', f', c', e', z', b', v', rfl, fun j => ?_⟩
  obtain ⟨p, q, h1⟩ := hc j
  obtain ⟨p', q', h2⟩ := hc' j
  exact ⟨p', q', by rw [h2, h1]⟩

/-- The event bits of one core changed. -/
theorem SettleFrame.core (s : State) (c : CoreId) (k : Core) (h : ∃ p q, k = { s.core c with evP := p, evS := q }) :
    SettleFrame s (s.setCore c k) := by
  refine ⟨s.now, s.keyActs, s.fkeys, (s.setCore c k).cores, s.ev, s.ks, s.keyBad, s.keySoft, rfl, fun j => ?_⟩
  by_cases hj : j = c
  · subst hj; simpa using h
  · exact ⟨(s.core j).evP, (s.core j).evS, by rw [setCore_core_ne s k hj]⟩

/-- A change of event bits changes the event bits. -/
theorem applyEvDo_bits (k : Core) (n : EventId) (w : EvDo) : ∃ p q, applyEvDo k n w = { k with evP := p, evS := q } := by
  unfold applyEvDo
  split
  · exact ⟨_, _, rfl⟩
  · exact ⟨_, _, rfl⟩
  · split
    · exact ⟨k.evP, k.evS, rfl⟩
    · exact ⟨_, _, rfl⟩

/-- The first act of a list is performed before the rest, or waits. -/
theorem settleActs_cons (t : Nat) (a : EvAct) (r : List EvAct) (s : State) :
    (settleActs t (a :: r) s).2 =
      (settleActs t r (s.setCore a.core (if (s.core a.core).seq.inReset then s.core a.core
        else applyEvDo (s.core a.core) a.ev a.what))).2 ∨
    (settleActs t (a :: r) s).2 = (settleActs t r s).2 := by
  rw [settleActs]
  dsimp only
  split
  · split
    · exact .inl rfl
    · exact .inr rfl
  · split
    · exact .inl rfl
    · exact .inr rfl

/-- The acts that are due change event bits of cores. -/
theorem settleActs_frame (t : Nat) (l : List EvAct) (s : State) : SettleFrame s (settleActs t l s).2 := by
  induction l generalizing s with
  | nil => exact SettleFrame.refl s
  | cons a r ih =>
    rcases settleActs_cons t a r s with h | h
    · rw [h]
      refine SettleFrame.trans (SettleFrame.core s a.core _ ?_) (ih _)
      split
      · exact ⟨(s.core a.core).evP, (s.core a.core).evS, rfl⟩
      · exact applyEvDo_bits ..
    · rw [h]
      exact ih s

/-- They leave the time. -/
theorem settleActs_now (t : Nat) (l : List EvAct) (s : State) : (settleActs t l s).2.now = s.now := by
  induction l generalizing s with
  | nil => rfl
  | cons a r ih =>
    rcases settleActs_cons t a r s with h | h <;> rw [h, ih]
    rfl

/-- A fold of changes is one. -/
theorem SettleFrame.foldl {α : Type} (f : State → α → State) (hf : ∀ s a, SettleFrame s (f s a)) (l : List α) (s : State) :
    SettleFrame s (l.foldl f s) := by
  induction l generalizing s with
  | nil => exact SettleFrame.refl s
  | cons a l ih => exact SettleFrame.trans (hf s a) (ih _)

/-- A raise performed on each core of a list changes event bits of cores. -/
theorem levelHits_frame (n : EventId) (l : List CoreId) (s : State) : SettleFrame s
    (l.foldl (fun s c => s.modCore c fun k => if k.seq.inReset then k else applyEvDo k n (.raise true)) s) := by
  refine SettleFrame.foldl _ (fun s c => SettleFrame.core s c _ ?_) l s
  dsimp only
  split
  · exact ⟨(s.core c).evP, (s.core c).evS, rfl⟩
  · exact applyEvDo_bits ..

/-- The raises of one held line change event bits of cores and the event controller. -/
theorem levelRaises_frame (n : EventId) (m : Nat) (s : State) : SettleFrame s (levelRaises n m s) := by
  unfold levelRaises
  split
  · exact SettleFrame.refl s
  · dsimp only
    repeat' split
    all_goals first
      | exact levelHits_frame ..
      | exact SettleFrame.trans (levelHits_frame ..) (SettleFrame.ofEv _ _ ⟨rfl, rfl, rfl, rfl⟩)

/-- The raises of held lines change event bits of cores and the event controller. -/
theorem settleLevels_frame (t : Nat) (s : State) : SettleFrame s (settleLevels t s) := by
  unfold settleLevels
  split
  · exact SettleFrame.refl s
  · exact SettleFrame.trans (SettleFrame.foldl _ (fun s (x : LevelSpan) => levelRaises_frame x.src (x.upTo (t - 2)) s) _ s)
      (SettleFrame.ofEv _ _ ⟨rfl, rfl, rfl, rfl⟩)

/-- A fold of operations that leave the time leaves it. -/
theorem foldl_now {α : Type} (f : State → α → State) (hf : ∀ s a, (f s a).now = s.now) (l : List α) (s : State) :
    (l.foldl f s).now = s.now := by
  induction l generalizing s with
  | nil => rfl
  | cons a l ih => rw [List.foldl_cons, ih, hf]

/-- The key writes that are due change keys alone. -/
theorem settleKeys_frame (t : Nat) (s : State) : SettleFrame s (settleKeys t s) := by
  unfold settleKeys
  refine SettleFrame.trans (SettleFrame.ofKeys s s.now _ s.fkeys s.keyBad s.keySoft) (SettleFrame.foldl _ ?_ _ _)
  intro u p
  obtain ⟨x, c, f, b⟩ := p
  exact SettleFrame.ofKeys u u.now u.keyActs _ _ _

/-- The event bits and the level lines brought up to a cycle, and the time. -/
theorem settleEvents_frame (t : Nat) (s : State) : SettleFrame s
    (let p := settleActs t s.ev.acts { s with ev := { s.ev with acts := [] } }
     let u := settleLevels t { p.2 with ev := { p.2.ev with acts := p.1 } }
     { u with now := max u.now t }) := by
  have h2 := settleActs_frame t s.ev.acts { s with ev := { s.ev with acts := [] } }
  generalize settleActs t s.ev.acts { s with ev := { s.ev with acts := [] } } = p at *
  obtain ⟨l, s2⟩ := p
  have h3 := settleLevels_frame t { s2 with ev := { s2.ev with acts := l } }
  exact (SettleFrame.ofEv s { s.ev with acts := [] } ⟨rfl, rfl, rfl, rfl⟩).trans (h2.trans
    ((SettleFrame.ofEv s2 { s2.ev with acts := l } ⟨rfl, rfl, rfl, rfl⟩).trans
      (h3.trans (SettleFrame.ofKeys _ _ _ _ _ _))))

/-- The units as of a cycle. -/
theorem settleUnits_frame (t : Nat) (s : State) : SettleFrame s (settleUnits t s) :=
  ((settleKeys_frame t s).trans (SettleFrame.ofStore _ (sweepStore (t / 2) (settleKeys t s).ks))).trans (settleEvents_frame t _)

/-! ## The fields they leave -/


@[simp] theorem msixSend_now (v : Nat) (s : State) : (msixSend v s).now = s.now := by
  obtain ⟨_, _, _, h⟩ := msixSend_frame v s
  rw [h]
  rfl
@[simp] theorem msixSend_grade (v : Nat) (s : State) : (msixSend v s).grade = s.grade := by
  obtain ⟨_, _, _, h⟩ := msixSend_frame v s
  rw [h]
  rfl
@[simp] theorem msixSend_lean (v : Nat) (s : State) : (msixSend v s).lean = s.lean := by
  obtain ⟨_, _, _, h⟩ := msixSend_frame v s
  rw [h]
  rfl
@[simp] theorem msixSend_cores (v : Nat) (s : State) : (msixSend v s).cores = s.cores := by
  obtain ⟨_, _, _, h⟩ := msixSend_frame v s
  rw [h]
  rfl
@[simp] theorem msixSend_pairs (v : Nat) (s : State) : (msixSend v s).pairs = s.pairs := by
  obtain ⟨_, _, _, h⟩ := msixSend_frame v s
  rw [h]
  rfl
@[simp] theorem msixSend_mem (v : Nat) (s : State) : (msixSend v s).mem = s.mem := by
  obtain ⟨_, _, _, h⟩ := msixSend_frame v s
  rw [h]
  rfl
@[simp] theorem msixSend_tags (v : Nat) (s : State) : (msixSend v s).tags = s.tags := by
  obtain ⟨_, _, _, h⟩ := msixSend_frame v s
  rw [h]
  rfl
@[simp] theorem msixSend_fkeys (v : Nat) (s : State) : (msixSend v s).fkeys = s.fkeys := by
  obtain ⟨_, _, _, h⟩ := msixSend_frame v s
  rw [h]
  rfl
@[simp] theorem msixSend_keyActs (v : Nat) (s : State) : (msixSend v s).keyActs = s.keyActs := by
  obtain ⟨_, _, _, h⟩ := msixSend_frame v s
  rw [h]
  rfl
@[simp] theorem msixSend_timed (v : Nat) (s : State) : (msixSend v s).timed = s.timed := by
  obtain ⟨_, _, _, h⟩ := msixSend_frame v s
  rw [h]
  rfl
@[simp] theorem msixSend_bg (v : Nat) (s : State) : (msixSend v s).bg = s.bg := by
  obtain ⟨_, _, _, h⟩ := msixSend_frame v s
  rw [h]
  rfl
@[simp] theorem msixSend_bgDone (v : Nat) (s : State) : (msixSend v s).bgDone = s.bgDone := by
  obtain ⟨_, _, _, h⟩ := msixSend_frame v s
  rw [h]
  rfl
@[simp] theorem msixSend_bgUsed (v : Nat) (s : State) : (msixSend v s).bgUsed = s.bgUsed := by
  obtain ⟨_, _, _, h⟩ := msixSend_frame v s
  rw [h]
  rfl
@[simp] theorem msixSend_eccSoft (v : Nat) (s : State) : (msixSend v s).eccSoft = s.eccSoft := by
  obtain ⟨_, _, _, h⟩ := msixSend_frame v s
  rw [h]
  rfl
@[simp] theorem msixSend_keyBad (v : Nat) (s : State) : (msixSend v s).keyBad = s.keyBad := by
  obtain ⟨_, _, _, h⟩ := msixSend_frame v s
  rw [h]
  rfl
@[simp] theorem msixSend_keySoft (v : Nat) (s : State) : (msixSend v s).keySoft = s.keySoft := by
  obtain ⟨_, _, _, h⟩ := msixSend_frame v s
  rw [h]
  rfl
@[simp] theorem msixSend_eccBad (v : Nat) (s : State) : (msixSend v s).eccBad = s.eccBad := by
  obtain ⟨_, _, _, h⟩ := msixSend_frame v s
  rw [h]
  rfl
@[simp] theorem msixSend_cfg (v : Nat) (s : State) : (msixSend v s).cfg = s.cfg := by
  obtain ⟨_, _, _, h⟩ := msixSend_frame v s
  rw [h]
  rfl
@[simp] theorem msixSend_slath (v : Nat) (s : State) : (msixSend v s).slath = s.slath := by
  obtain ⟨_, _, _, h⟩ := msixSend_frame v s
  rw [h]
  rfl
@[simp] theorem msixSend_engines (v : Nat) (s : State) : (msixSend v s).engines = s.engines := by
  obtain ⟨_, _, _, h⟩ := msixSend_frame v s
  rw [h]
  rfl
@[simp] theorem msixSend_ks (v : Nat) (s : State) : (msixSend v s).ks = s.ks := by
  obtain ⟨_, _, _, h⟩ := msixSend_frame v s
  rw [h]
  rfl
@[simp] theorem msixSend_drbg (v : Nat) (s : State) : (msixSend v s).drbg = s.drbg := by
  obtain ⟨_, _, _, h⟩ := msixSend_frame v s
  rw [h]
  rfl
@[simp] theorem msixSend_jn (v : Nat) (s : State) : (msixSend v s).jn = s.jn := by
  obtain ⟨_, _, _, h⟩ := msixSend_frame v s
  rw [h]
  rfl
@[simp] theorem msixSend_headSlots (v : Nat) (s : State) : (msixSend v s).headSlots = s.headSlots := by
  obtain ⟨_, _, _, h⟩ := msixSend_frame v s
  rw [h]
  rfl
@[simp] theorem msixSend_mov (v : Nat) (s : State) : (msixSend v s).mov = s.mov := by
  obtain ⟨_, _, _, h⟩ := msixSend_frame v s
  rw [h]
  rfl
@[simp] theorem msixSend_pw (v : Nat) (s : State) : (msixSend v s).pw = s.pw := by
  obtain ⟨_, _, _, h⟩ := msixSend_frame v s
  rw [h]
  rfl
@[simp] theorem msixSend_sb (v : Nat) (s : State) : (msixSend v s).sb = s.sb := by
  obtain ⟨_, _, _, h⟩ := msixSend_frame v s
  rw [h]
  rfl
@[simp] theorem msixSend_free (v : Nat) (s : State) : (msixSend v s).free = s.free := by
  obtain ⟨_, _, _, h⟩ := msixSend_frame v s
  rw [h]
  rfl
@[simp] theorem msixSend_pending (v : Nat) (s : State) : (msixSend v s).pending = s.pending := by
  obtain ⟨_, _, _, h⟩ := msixSend_frame v s
  rw [h]
  rfl

@[simp] theorem raiseCores_now (n : EventId) (r : Nat) (s : State) : (raiseCores n r s).now = s.now := by
  obtain ⟨_, _, _, h⟩ := raiseCores_frame n r s
  rw [h]
  rfl
@[simp] theorem raiseCores_grade (n : EventId) (r : Nat) (s : State) : (raiseCores n r s).grade = s.grade := by
  obtain ⟨_, _, _, h⟩ := raiseCores_frame n r s
  rw [h]
  rfl
@[simp] theorem raiseCores_lean (n : EventId) (r : Nat) (s : State) : (raiseCores n r s).lean = s.lean := by
  obtain ⟨_, _, _, h⟩ := raiseCores_frame n r s
  rw [h]
  rfl
@[simp] theorem raiseCores_cores (n : EventId) (r : Nat) (s : State) : (raiseCores n r s).cores = s.cores := by
  obtain ⟨_, _, _, h⟩ := raiseCores_frame n r s
  rw [h]
  rfl
@[simp] theorem raiseCores_pairs (n : EventId) (r : Nat) (s : State) : (raiseCores n r s).pairs = s.pairs := by
  obtain ⟨_, _, _, h⟩ := raiseCores_frame n r s
  rw [h]
  rfl
@[simp] theorem raiseCores_mem (n : EventId) (r : Nat) (s : State) : (raiseCores n r s).mem = s.mem := by
  obtain ⟨_, _, _, h⟩ := raiseCores_frame n r s
  rw [h]
  rfl
@[simp] theorem raiseCores_tags (n : EventId) (r : Nat) (s : State) : (raiseCores n r s).tags = s.tags := by
  obtain ⟨_, _, _, h⟩ := raiseCores_frame n r s
  rw [h]
  rfl
@[simp] theorem raiseCores_fkeys (n : EventId) (r : Nat) (s : State) : (raiseCores n r s).fkeys = s.fkeys := by
  obtain ⟨_, _, _, h⟩ := raiseCores_frame n r s
  rw [h]
  rfl
@[simp] theorem raiseCores_keyActs (n : EventId) (r : Nat) (s : State) : (raiseCores n r s).keyActs = s.keyActs := by
  obtain ⟨_, _, _, h⟩ := raiseCores_frame n r s
  rw [h]
  rfl
@[simp] theorem raiseCores_timed (n : EventId) (r : Nat) (s : State) : (raiseCores n r s).timed = s.timed := by
  obtain ⟨_, _, _, h⟩ := raiseCores_frame n r s
  rw [h]
  rfl
@[simp] theorem raiseCores_bg (n : EventId) (r : Nat) (s : State) : (raiseCores n r s).bg = s.bg := by
  obtain ⟨_, _, _, h⟩ := raiseCores_frame n r s
  rw [h]
  rfl
@[simp] theorem raiseCores_bgDone (n : EventId) (r : Nat) (s : State) : (raiseCores n r s).bgDone = s.bgDone := by
  obtain ⟨_, _, _, h⟩ := raiseCores_frame n r s
  rw [h]
  rfl
@[simp] theorem raiseCores_bgUsed (n : EventId) (r : Nat) (s : State) : (raiseCores n r s).bgUsed = s.bgUsed := by
  obtain ⟨_, _, _, h⟩ := raiseCores_frame n r s
  rw [h]
  rfl
@[simp] theorem raiseCores_eccSoft (n : EventId) (r : Nat) (s : State) : (raiseCores n r s).eccSoft = s.eccSoft := by
  obtain ⟨_, _, _, h⟩ := raiseCores_frame n r s
  rw [h]
  rfl
@[simp] theorem raiseCores_keyBad (n : EventId) (r : Nat) (s : State) : (raiseCores n r s).keyBad = s.keyBad := by
  obtain ⟨_, _, _, h⟩ := raiseCores_frame n r s
  rw [h]
  rfl
@[simp] theorem raiseCores_keySoft (n : EventId) (r : Nat) (s : State) : (raiseCores n r s).keySoft = s.keySoft := by
  obtain ⟨_, _, _, h⟩ := raiseCores_frame n r s
  rw [h]
  rfl
@[simp] theorem raiseCores_eccBad (n : EventId) (r : Nat) (s : State) : (raiseCores n r s).eccBad = s.eccBad := by
  obtain ⟨_, _, _, h⟩ := raiseCores_frame n r s
  rw [h]
  rfl
@[simp] theorem raiseCores_cfg (n : EventId) (r : Nat) (s : State) : (raiseCores n r s).cfg = s.cfg := by
  obtain ⟨_, _, _, h⟩ := raiseCores_frame n r s
  rw [h]
  rfl
@[simp] theorem raiseCores_slath (n : EventId) (r : Nat) (s : State) : (raiseCores n r s).slath = s.slath := by
  obtain ⟨_, _, _, h⟩ := raiseCores_frame n r s
  rw [h]
  rfl
@[simp] theorem raiseCores_engines (n : EventId) (r : Nat) (s : State) : (raiseCores n r s).engines = s.engines := by
  obtain ⟨_, _, _, h⟩ := raiseCores_frame n r s
  rw [h]
  rfl
@[simp] theorem raiseCores_ks (n : EventId) (r : Nat) (s : State) : (raiseCores n r s).ks = s.ks := by
  obtain ⟨_, _, _, h⟩ := raiseCores_frame n r s
  rw [h]
  rfl
@[simp] theorem raiseCores_drbg (n : EventId) (r : Nat) (s : State) : (raiseCores n r s).drbg = s.drbg := by
  obtain ⟨_, _, _, h⟩ := raiseCores_frame n r s
  rw [h]
  rfl
@[simp] theorem raiseCores_jn (n : EventId) (r : Nat) (s : State) : (raiseCores n r s).jn = s.jn := by
  obtain ⟨_, _, _, h⟩ := raiseCores_frame n r s
  rw [h]
  rfl
@[simp] theorem raiseCores_headSlots (n : EventId) (r : Nat) (s : State) : (raiseCores n r s).headSlots = s.headSlots := by
  obtain ⟨_, _, _, h⟩ := raiseCores_frame n r s
  rw [h]
  rfl
@[simp] theorem raiseCores_mov (n : EventId) (r : Nat) (s : State) : (raiseCores n r s).mov = s.mov := by
  obtain ⟨_, _, _, h⟩ := raiseCores_frame n r s
  rw [h]
  rfl
@[simp] theorem raiseCores_pw (n : EventId) (r : Nat) (s : State) : (raiseCores n r s).pw = s.pw := by
  obtain ⟨_, _, _, h⟩ := raiseCores_frame n r s
  rw [h]
  rfl
@[simp] theorem raiseCores_sb (n : EventId) (r : Nat) (s : State) : (raiseCores n r s).sb = s.sb := by
  obtain ⟨_, _, _, h⟩ := raiseCores_frame n r s
  rw [h]
  rfl
@[simp] theorem raiseCores_free (n : EventId) (r : Nat) (s : State) : (raiseCores n r s).free = s.free := by
  obtain ⟨_, _, _, h⟩ := raiseCores_frame n r s
  rw [h]
  rfl
@[simp] theorem raiseCores_pending (n : EventId) (r : Nat) (s : State) : (raiseCores n r s).pending = s.pending := by
  obtain ⟨_, _, _, h⟩ := raiseCores_frame n r s
  rw [h]
  rfl

@[simp] theorem raise_now (n : EventId) (r : Nat) (s : State) : (raise n r s).now = s.now := by
  obtain ⟨_, _, _, h⟩ := raise_frame n r s
  rw [h]
  rfl
@[simp] theorem raise_grade (n : EventId) (r : Nat) (s : State) : (raise n r s).grade = s.grade := by
  obtain ⟨_, _, _, h⟩ := raise_frame n r s
  rw [h]
  rfl
@[simp] theorem raise_lean (n : EventId) (r : Nat) (s : State) : (raise n r s).lean = s.lean := by
  obtain ⟨_, _, _, h⟩ := raise_frame n r s
  rw [h]
  rfl
@[simp] theorem raise_cores (n : EventId) (r : Nat) (s : State) : (raise n r s).cores = s.cores := by
  obtain ⟨_, _, _, h⟩ := raise_frame n r s
  rw [h]
  rfl
@[simp] theorem raise_pairs (n : EventId) (r : Nat) (s : State) : (raise n r s).pairs = s.pairs := by
  obtain ⟨_, _, _, h⟩ := raise_frame n r s
  rw [h]
  rfl
@[simp] theorem raise_mem (n : EventId) (r : Nat) (s : State) : (raise n r s).mem = s.mem := by
  obtain ⟨_, _, _, h⟩ := raise_frame n r s
  rw [h]
  rfl
@[simp] theorem raise_tags (n : EventId) (r : Nat) (s : State) : (raise n r s).tags = s.tags := by
  obtain ⟨_, _, _, h⟩ := raise_frame n r s
  rw [h]
  rfl
@[simp] theorem raise_fkeys (n : EventId) (r : Nat) (s : State) : (raise n r s).fkeys = s.fkeys := by
  obtain ⟨_, _, _, h⟩ := raise_frame n r s
  rw [h]
  rfl
@[simp] theorem raise_keyActs (n : EventId) (r : Nat) (s : State) : (raise n r s).keyActs = s.keyActs := by
  obtain ⟨_, _, _, h⟩ := raise_frame n r s
  rw [h]
  rfl
@[simp] theorem raise_timed (n : EventId) (r : Nat) (s : State) : (raise n r s).timed = s.timed := by
  obtain ⟨_, _, _, h⟩ := raise_frame n r s
  rw [h]
  rfl
@[simp] theorem raise_bg (n : EventId) (r : Nat) (s : State) : (raise n r s).bg = s.bg := by
  obtain ⟨_, _, _, h⟩ := raise_frame n r s
  rw [h]
  rfl
@[simp] theorem raise_bgDone (n : EventId) (r : Nat) (s : State) : (raise n r s).bgDone = s.bgDone := by
  obtain ⟨_, _, _, h⟩ := raise_frame n r s
  rw [h]
  rfl
@[simp] theorem raise_bgUsed (n : EventId) (r : Nat) (s : State) : (raise n r s).bgUsed = s.bgUsed := by
  obtain ⟨_, _, _, h⟩ := raise_frame n r s
  rw [h]
  rfl
@[simp] theorem raise_eccSoft (n : EventId) (r : Nat) (s : State) : (raise n r s).eccSoft = s.eccSoft := by
  obtain ⟨_, _, _, h⟩ := raise_frame n r s
  rw [h]
  rfl
@[simp] theorem raise_keyBad (n : EventId) (r : Nat) (s : State) : (raise n r s).keyBad = s.keyBad := by
  obtain ⟨_, _, _, h⟩ := raise_frame n r s
  rw [h]
  rfl
@[simp] theorem raise_keySoft (n : EventId) (r : Nat) (s : State) : (raise n r s).keySoft = s.keySoft := by
  obtain ⟨_, _, _, h⟩ := raise_frame n r s
  rw [h]
  rfl
@[simp] theorem raise_eccBad (n : EventId) (r : Nat) (s : State) : (raise n r s).eccBad = s.eccBad := by
  obtain ⟨_, _, _, h⟩ := raise_frame n r s
  rw [h]
  rfl
@[simp] theorem raise_cfg (n : EventId) (r : Nat) (s : State) : (raise n r s).cfg = s.cfg := by
  obtain ⟨_, _, _, h⟩ := raise_frame n r s
  rw [h]
  rfl
@[simp] theorem raise_slath (n : EventId) (r : Nat) (s : State) : (raise n r s).slath = s.slath := by
  obtain ⟨_, _, _, h⟩ := raise_frame n r s
  rw [h]
  rfl
@[simp] theorem raise_engines (n : EventId) (r : Nat) (s : State) : (raise n r s).engines = s.engines := by
  obtain ⟨_, _, _, h⟩ := raise_frame n r s
  rw [h]
  rfl
@[simp] theorem raise_ks (n : EventId) (r : Nat) (s : State) : (raise n r s).ks = s.ks := by
  obtain ⟨_, _, _, h⟩ := raise_frame n r s
  rw [h]
  rfl
@[simp] theorem raise_drbg (n : EventId) (r : Nat) (s : State) : (raise n r s).drbg = s.drbg := by
  obtain ⟨_, _, _, h⟩ := raise_frame n r s
  rw [h]
  rfl
@[simp] theorem raise_jn (n : EventId) (r : Nat) (s : State) : (raise n r s).jn = s.jn := by
  obtain ⟨_, _, _, h⟩ := raise_frame n r s
  rw [h]
  rfl
@[simp] theorem raise_headSlots (n : EventId) (r : Nat) (s : State) : (raise n r s).headSlots = s.headSlots := by
  obtain ⟨_, _, _, h⟩ := raise_frame n r s
  rw [h]
  rfl
@[simp] theorem raise_mov (n : EventId) (r : Nat) (s : State) : (raise n r s).mov = s.mov := by
  obtain ⟨_, _, _, h⟩ := raise_frame n r s
  rw [h]
  rfl
@[simp] theorem raise_pw (n : EventId) (r : Nat) (s : State) : (raise n r s).pw = s.pw := by
  obtain ⟨_, _, _, h⟩ := raise_frame n r s
  rw [h]
  rfl
@[simp] theorem raise_sb (n : EventId) (r : Nat) (s : State) : (raise n r s).sb = s.sb := by
  obtain ⟨_, _, _, h⟩ := raise_frame n r s
  rw [h]
  rfl
@[simp] theorem raise_free (n : EventId) (r : Nat) (s : State) : (raise n r s).free = s.free := by
  obtain ⟨_, _, _, h⟩ := raise_frame n r s
  rw [h]
  rfl
@[simp] theorem raise_pending (n : EventId) (r : Nat) (s : State) : (raise n r s).pending = s.pending := by
  obtain ⟨_, _, _, h⟩ := raise_frame n r s
  rw [h]
  rfl

@[simp] theorem pulse_now (n : Nat) (s : State) : (pulse n s).now = s.now := by
  obtain ⟨_, _, _, h⟩ := pulse_frame n s
  rw [h]
  rfl
@[simp] theorem pulse_grade (n : Nat) (s : State) : (pulse n s).grade = s.grade := by
  obtain ⟨_, _, _, h⟩ := pulse_frame n s
  rw [h]
  rfl
@[simp] theorem pulse_lean (n : Nat) (s : State) : (pulse n s).lean = s.lean := by
  obtain ⟨_, _, _, h⟩ := pulse_frame n s
  rw [h]
  rfl
@[simp] theorem pulse_cores (n : Nat) (s : State) : (pulse n s).cores = s.cores := by
  obtain ⟨_, _, _, h⟩ := pulse_frame n s
  rw [h]
  rfl
@[simp] theorem pulse_pairs (n : Nat) (s : State) : (pulse n s).pairs = s.pairs := by
  obtain ⟨_, _, _, h⟩ := pulse_frame n s
  rw [h]
  rfl
@[simp] theorem pulse_mem (n : Nat) (s : State) : (pulse n s).mem = s.mem := by
  obtain ⟨_, _, _, h⟩ := pulse_frame n s
  rw [h]
  rfl
@[simp] theorem pulse_tags (n : Nat) (s : State) : (pulse n s).tags = s.tags := by
  obtain ⟨_, _, _, h⟩ := pulse_frame n s
  rw [h]
  rfl
@[simp] theorem pulse_fkeys (n : Nat) (s : State) : (pulse n s).fkeys = s.fkeys := by
  obtain ⟨_, _, _, h⟩ := pulse_frame n s
  rw [h]
  rfl
@[simp] theorem pulse_keyActs (n : Nat) (s : State) : (pulse n s).keyActs = s.keyActs := by
  obtain ⟨_, _, _, h⟩ := pulse_frame n s
  rw [h]
  rfl
@[simp] theorem pulse_timed (n : Nat) (s : State) : (pulse n s).timed = s.timed := by
  obtain ⟨_, _, _, h⟩ := pulse_frame n s
  rw [h]
  rfl
@[simp] theorem pulse_bg (n : Nat) (s : State) : (pulse n s).bg = s.bg := by
  obtain ⟨_, _, _, h⟩ := pulse_frame n s
  rw [h]
  rfl
@[simp] theorem pulse_bgDone (n : Nat) (s : State) : (pulse n s).bgDone = s.bgDone := by
  obtain ⟨_, _, _, h⟩ := pulse_frame n s
  rw [h]
  rfl
@[simp] theorem pulse_bgUsed (n : Nat) (s : State) : (pulse n s).bgUsed = s.bgUsed := by
  obtain ⟨_, _, _, h⟩ := pulse_frame n s
  rw [h]
  rfl
@[simp] theorem pulse_eccSoft (n : Nat) (s : State) : (pulse n s).eccSoft = s.eccSoft := by
  obtain ⟨_, _, _, h⟩ := pulse_frame n s
  rw [h]
  rfl
@[simp] theorem pulse_keyBad (n : Nat) (s : State) : (pulse n s).keyBad = s.keyBad := by
  obtain ⟨_, _, _, h⟩ := pulse_frame n s
  rw [h]
  rfl
@[simp] theorem pulse_keySoft (n : Nat) (s : State) : (pulse n s).keySoft = s.keySoft := by
  obtain ⟨_, _, _, h⟩ := pulse_frame n s
  rw [h]
  rfl
@[simp] theorem pulse_eccBad (n : Nat) (s : State) : (pulse n s).eccBad = s.eccBad := by
  obtain ⟨_, _, _, h⟩ := pulse_frame n s
  rw [h]
  rfl
@[simp] theorem pulse_cfg (n : Nat) (s : State) : (pulse n s).cfg = s.cfg := by
  obtain ⟨_, _, _, h⟩ := pulse_frame n s
  rw [h]
  rfl
@[simp] theorem pulse_slath (n : Nat) (s : State) : (pulse n s).slath = s.slath := by
  obtain ⟨_, _, _, h⟩ := pulse_frame n s
  rw [h]
  rfl
@[simp] theorem pulse_engines (n : Nat) (s : State) : (pulse n s).engines = s.engines := by
  obtain ⟨_, _, _, h⟩ := pulse_frame n s
  rw [h]
  rfl
@[simp] theorem pulse_ks (n : Nat) (s : State) : (pulse n s).ks = s.ks := by
  obtain ⟨_, _, _, h⟩ := pulse_frame n s
  rw [h]
  rfl
@[simp] theorem pulse_drbg (n : Nat) (s : State) : (pulse n s).drbg = s.drbg := by
  obtain ⟨_, _, _, h⟩ := pulse_frame n s
  rw [h]
  rfl
@[simp] theorem pulse_jn (n : Nat) (s : State) : (pulse n s).jn = s.jn := by
  obtain ⟨_, _, _, h⟩ := pulse_frame n s
  rw [h]
  rfl
@[simp] theorem pulse_headSlots (n : Nat) (s : State) : (pulse n s).headSlots = s.headSlots := by
  obtain ⟨_, _, _, h⟩ := pulse_frame n s
  rw [h]
  rfl
@[simp] theorem pulse_mov (n : Nat) (s : State) : (pulse n s).mov = s.mov := by
  obtain ⟨_, _, _, h⟩ := pulse_frame n s
  rw [h]
  rfl
@[simp] theorem pulse_pw (n : Nat) (s : State) : (pulse n s).pw = s.pw := by
  obtain ⟨_, _, _, h⟩ := pulse_frame n s
  rw [h]
  rfl
@[simp] theorem pulse_sb (n : Nat) (s : State) : (pulse n s).sb = s.sb := by
  obtain ⟨_, _, _, h⟩ := pulse_frame n s
  rw [h]
  rfl
@[simp] theorem pulse_free (n : Nat) (s : State) : (pulse n s).free = s.free := by
  obtain ⟨_, _, _, h⟩ := pulse_frame n s
  rw [h]
  rfl
@[simp] theorem pulse_pending (n : Nat) (s : State) : (pulse n s).pending = s.pending := by
  obtain ⟨_, _, _, h⟩ := pulse_frame n s
  rw [h]
  rfl

@[simp] theorem setLine_now (n : Nat) (b : Bool) (r : Nat) (s : State) : (setLine n b r s).now = s.now := by
  obtain ⟨_, _, _, h⟩ := setLine_frame n b r s
  rw [h]
  rfl
@[simp] theorem setLine_grade (n : Nat) (b : Bool) (r : Nat) (s : State) : (setLine n b r s).grade = s.grade := by
  obtain ⟨_, _, _, h⟩ := setLine_frame n b r s
  rw [h]
  rfl
@[simp] theorem setLine_lean (n : Nat) (b : Bool) (r : Nat) (s : State) : (setLine n b r s).lean = s.lean := by
  obtain ⟨_, _, _, h⟩ := setLine_frame n b r s
  rw [h]
  rfl
@[simp] theorem setLine_cores (n : Nat) (b : Bool) (r : Nat) (s : State) : (setLine n b r s).cores = s.cores := by
  obtain ⟨_, _, _, h⟩ := setLine_frame n b r s
  rw [h]
  rfl
@[simp] theorem setLine_pairs (n : Nat) (b : Bool) (r : Nat) (s : State) : (setLine n b r s).pairs = s.pairs := by
  obtain ⟨_, _, _, h⟩ := setLine_frame n b r s
  rw [h]
  rfl
@[simp] theorem setLine_mem (n : Nat) (b : Bool) (r : Nat) (s : State) : (setLine n b r s).mem = s.mem := by
  obtain ⟨_, _, _, h⟩ := setLine_frame n b r s
  rw [h]
  rfl
@[simp] theorem setLine_tags (n : Nat) (b : Bool) (r : Nat) (s : State) : (setLine n b r s).tags = s.tags := by
  obtain ⟨_, _, _, h⟩ := setLine_frame n b r s
  rw [h]
  rfl
@[simp] theorem setLine_fkeys (n : Nat) (b : Bool) (r : Nat) (s : State) : (setLine n b r s).fkeys = s.fkeys := by
  obtain ⟨_, _, _, h⟩ := setLine_frame n b r s
  rw [h]
  rfl
@[simp] theorem setLine_keyActs (n : Nat) (b : Bool) (r : Nat) (s : State) : (setLine n b r s).keyActs = s.keyActs := by
  obtain ⟨_, _, _, h⟩ := setLine_frame n b r s
  rw [h]
  rfl
@[simp] theorem setLine_timed (n : Nat) (b : Bool) (r : Nat) (s : State) : (setLine n b r s).timed = s.timed := by
  obtain ⟨_, _, _, h⟩ := setLine_frame n b r s
  rw [h]
  rfl
@[simp] theorem setLine_bg (n : Nat) (b : Bool) (r : Nat) (s : State) : (setLine n b r s).bg = s.bg := by
  obtain ⟨_, _, _, h⟩ := setLine_frame n b r s
  rw [h]
  rfl
@[simp] theorem setLine_bgDone (n : Nat) (b : Bool) (r : Nat) (s : State) : (setLine n b r s).bgDone = s.bgDone := by
  obtain ⟨_, _, _, h⟩ := setLine_frame n b r s
  rw [h]
  rfl
@[simp] theorem setLine_bgUsed (n : Nat) (b : Bool) (r : Nat) (s : State) : (setLine n b r s).bgUsed = s.bgUsed := by
  obtain ⟨_, _, _, h⟩ := setLine_frame n b r s
  rw [h]
  rfl
@[simp] theorem setLine_eccSoft (n : Nat) (b : Bool) (r : Nat) (s : State) : (setLine n b r s).eccSoft = s.eccSoft := by
  obtain ⟨_, _, _, h⟩ := setLine_frame n b r s
  rw [h]
  rfl
@[simp] theorem setLine_keyBad (n : Nat) (b : Bool) (r : Nat) (s : State) : (setLine n b r s).keyBad = s.keyBad := by
  obtain ⟨_, _, _, h⟩ := setLine_frame n b r s
  rw [h]
  rfl
@[simp] theorem setLine_keySoft (n : Nat) (b : Bool) (r : Nat) (s : State) : (setLine n b r s).keySoft = s.keySoft := by
  obtain ⟨_, _, _, h⟩ := setLine_frame n b r s
  rw [h]
  rfl
@[simp] theorem setLine_eccBad (n : Nat) (b : Bool) (r : Nat) (s : State) : (setLine n b r s).eccBad = s.eccBad := by
  obtain ⟨_, _, _, h⟩ := setLine_frame n b r s
  rw [h]
  rfl
@[simp] theorem setLine_cfg (n : Nat) (b : Bool) (r : Nat) (s : State) : (setLine n b r s).cfg = s.cfg := by
  obtain ⟨_, _, _, h⟩ := setLine_frame n b r s
  rw [h]
  rfl
@[simp] theorem setLine_slath (n : Nat) (b : Bool) (r : Nat) (s : State) : (setLine n b r s).slath = s.slath := by
  obtain ⟨_, _, _, h⟩ := setLine_frame n b r s
  rw [h]
  rfl
@[simp] theorem setLine_engines (n : Nat) (b : Bool) (r : Nat) (s : State) : (setLine n b r s).engines = s.engines := by
  obtain ⟨_, _, _, h⟩ := setLine_frame n b r s
  rw [h]
  rfl
@[simp] theorem setLine_ks (n : Nat) (b : Bool) (r : Nat) (s : State) : (setLine n b r s).ks = s.ks := by
  obtain ⟨_, _, _, h⟩ := setLine_frame n b r s
  rw [h]
  rfl
@[simp] theorem setLine_drbg (n : Nat) (b : Bool) (r : Nat) (s : State) : (setLine n b r s).drbg = s.drbg := by
  obtain ⟨_, _, _, h⟩ := setLine_frame n b r s
  rw [h]
  rfl
@[simp] theorem setLine_jn (n : Nat) (b : Bool) (r : Nat) (s : State) : (setLine n b r s).jn = s.jn := by
  obtain ⟨_, _, _, h⟩ := setLine_frame n b r s
  rw [h]
  rfl
@[simp] theorem setLine_headSlots (n : Nat) (b : Bool) (r : Nat) (s : State) : (setLine n b r s).headSlots = s.headSlots := by
  obtain ⟨_, _, _, h⟩ := setLine_frame n b r s
  rw [h]
  rfl
@[simp] theorem setLine_mov (n : Nat) (b : Bool) (r : Nat) (s : State) : (setLine n b r s).mov = s.mov := by
  obtain ⟨_, _, _, h⟩ := setLine_frame n b r s
  rw [h]
  rfl
@[simp] theorem setLine_pw (n : Nat) (b : Bool) (r : Nat) (s : State) : (setLine n b r s).pw = s.pw := by
  obtain ⟨_, _, _, h⟩ := setLine_frame n b r s
  rw [h]
  rfl
@[simp] theorem setLine_sb (n : Nat) (b : Bool) (r : Nat) (s : State) : (setLine n b r s).sb = s.sb := by
  obtain ⟨_, _, _, h⟩ := setLine_frame n b r s
  rw [h]
  rfl
@[simp] theorem setLine_free (n : Nat) (b : Bool) (r : Nat) (s : State) : (setLine n b r s).free = s.free := by
  obtain ⟨_, _, _, h⟩ := setLine_frame n b r s
  rw [h]
  rfl
@[simp] theorem setLine_pending (n : Nat) (b : Bool) (r : Nat) (s : State) : (setLine n b r s).pending = s.pending := by
  obtain ⟨_, _, _, h⟩ := setLine_frame n b r s
  rw [h]
  rfl

@[simp] theorem settleUnits_grade (t : Nat) (s : State) : (settleUnits t s).grade = s.grade := by
  obtain ⟨_, _, _, _, _, _, _, _, h, -⟩ := settleUnits_frame t s
  rw [h]
  rfl
@[simp] theorem settleUnits_lean (t : Nat) (s : State) : (settleUnits t s).lean = s.lean := by
  obtain ⟨_, _, _, _, _, _, _, _, h, -⟩ := settleUnits_frame t s
  rw [h]
  rfl
@[simp] theorem settleUnits_pairs (t : Nat) (s : State) : (settleUnits t s).pairs = s.pairs := by
  obtain ⟨_, _, _, _, _, _, _, _, h, -⟩ := settleUnits_frame t s
  rw [h]
  rfl
@[simp] theorem settleUnits_mem (t : Nat) (s : State) : (settleUnits t s).mem = s.mem := by
  obtain ⟨_, _, _, _, _, _, _, _, h, -⟩ := settleUnits_frame t s
  rw [h]
  rfl
@[simp] theorem settleUnits_tags (t : Nat) (s : State) : (settleUnits t s).tags = s.tags := by
  obtain ⟨_, _, _, _, _, _, _, _, h, -⟩ := settleUnits_frame t s
  rw [h]
  rfl
@[simp] theorem settleUnits_timed (t : Nat) (s : State) : (settleUnits t s).timed = s.timed := by
  obtain ⟨_, _, _, _, _, _, _, _, h, -⟩ := settleUnits_frame t s
  rw [h]
  rfl
@[simp] theorem settleUnits_bg (t : Nat) (s : State) : (settleUnits t s).bg = s.bg := by
  obtain ⟨_, _, _, _, _, _, _, _, h, -⟩ := settleUnits_frame t s
  rw [h]
  rfl
@[simp] theorem settleUnits_bgDone (t : Nat) (s : State) : (settleUnits t s).bgDone = s.bgDone := by
  obtain ⟨_, _, _, _, _, _, _, _, h, -⟩ := settleUnits_frame t s
  rw [h]
  rfl
@[simp] theorem settleUnits_bgUsed (t : Nat) (s : State) : (settleUnits t s).bgUsed = s.bgUsed := by
  obtain ⟨_, _, _, _, _, _, _, _, h, -⟩ := settleUnits_frame t s
  rw [h]
  rfl
@[simp] theorem settleUnits_eccSoft (t : Nat) (s : State) : (settleUnits t s).eccSoft = s.eccSoft := by
  obtain ⟨_, _, _, _, _, _, _, _, h, -⟩ := settleUnits_frame t s
  rw [h]
  rfl
@[simp] theorem settleUnits_eccBad (t : Nat) (s : State) : (settleUnits t s).eccBad = s.eccBad := by
  obtain ⟨_, _, _, _, _, _, _, _, h, -⟩ := settleUnits_frame t s
  rw [h]
  rfl
@[simp] theorem settleUnits_cfg (t : Nat) (s : State) : (settleUnits t s).cfg = s.cfg := by
  obtain ⟨_, _, _, _, _, _, _, _, h, -⟩ := settleUnits_frame t s
  rw [h]
  rfl
@[simp] theorem settleUnits_slath (t : Nat) (s : State) : (settleUnits t s).slath = s.slath := by
  obtain ⟨_, _, _, _, _, _, _, _, h, -⟩ := settleUnits_frame t s
  rw [h]
  rfl
@[simp] theorem settleUnits_engines (t : Nat) (s : State) : (settleUnits t s).engines = s.engines := by
  obtain ⟨_, _, _, _, _, _, _, _, h, -⟩ := settleUnits_frame t s
  rw [h]
  rfl
@[simp] theorem settleUnits_drbg (t : Nat) (s : State) : (settleUnits t s).drbg = s.drbg := by
  obtain ⟨_, _, _, _, _, _, _, _, h, -⟩ := settleUnits_frame t s
  rw [h]
  rfl
@[simp] theorem settleUnits_jn (t : Nat) (s : State) : (settleUnits t s).jn = s.jn := by
  obtain ⟨_, _, _, _, _, _, _, _, h, -⟩ := settleUnits_frame t s
  rw [h]
  rfl
@[simp] theorem settleUnits_headSlots (t : Nat) (s : State) : (settleUnits t s).headSlots = s.headSlots := by
  obtain ⟨_, _, _, _, _, _, _, _, h, -⟩ := settleUnits_frame t s
  rw [h]
  rfl
@[simp] theorem settleUnits_link (t : Nat) (s : State) : (settleUnits t s).link = s.link := by
  obtain ⟨_, _, _, _, _, _, _, _, h, -⟩ := settleUnits_frame t s
  rw [h]
  rfl
@[simp] theorem settleUnits_mov (t : Nat) (s : State) : (settleUnits t s).mov = s.mov := by
  obtain ⟨_, _, _, _, _, _, _, _, h, -⟩ := settleUnits_frame t s
  rw [h]
  rfl
@[simp] theorem settleUnits_pw (t : Nat) (s : State) : (settleUnits t s).pw = s.pw := by
  obtain ⟨_, _, _, _, _, _, _, _, h, -⟩ := settleUnits_frame t s
  rw [h]
  rfl
@[simp] theorem settleUnits_sb (t : Nat) (s : State) : (settleUnits t s).sb = s.sb := by
  obtain ⟨_, _, _, _, _, _, _, _, h, -⟩ := settleUnits_frame t s
  rw [h]
  rfl
@[simp] theorem settleUnits_free (t : Nat) (s : State) : (settleUnits t s).free = s.free := by
  obtain ⟨_, _, _, _, _, _, _, _, h, -⟩ := settleUnits_frame t s
  rw [h]
  rfl
@[simp] theorem settleUnits_pending (t : Nat) (s : State) : (settleUnits t s).pending = s.pending := by
  obtain ⟨_, _, _, _, _, _, _, _, h, -⟩ := settleUnits_frame t s
  rw [h]
  rfl

/-- The units that a list of level raises leaves are of the same time. -/
theorem levelRaises_now (n : EventId) (m : Nat) (s : State) : (levelRaises n m s).now = s.now := by
  have key (l : List CoreId) :
      (l.foldl (fun s c => s.modCore c fun k => if k.seq.inReset then k else applyEvDo k n (.raise true)) s).now = s.now := by
    apply foldl_now
    intros
    rfl
  unfold levelRaises
  dsimp only
  repeat' split
  all_goals first | rfl | exact key _

/-- The time after the units are brought up to a cycle. -/
@[simp] theorem settleUnits_now (t : Nat) (s : State) : (settleUnits t s).now = max s.now t := by
  have h1 : (settleKeys t s).now = s.now := by
    unfold settleKeys
    refine (foldl_now _ ?_ _ _).trans rfl
    intros
    rfl
  have h3 : ∀ u : State, (settleLevels t u).now = u.now := by
    intro u
    unfold settleLevels
    split
    · rfl
    · exact foldl_now _ (fun s (x : LevelSpan) => levelRaises_now x.src (x.upTo (t - 2)) s) _ _
  unfold settleUnits
  dsimp only
  rw [h3, settleActs_now, h1]

@[simp] theorem raise_link_rings (n : EventId) (r : Nat) (s : State) : (raise n r s).link.rings = s.link.rings := by
  obtain ⟨_, _, _, h⟩ := raise_frame n r s
  rw [h]
  rfl
@[simp] theorem raise_link_busyQ (n : EventId) (r : Nat) (s : State) : (raise n r s).link.busyQ = s.link.busyQ := by
  obtain ⟨_, _, _, h⟩ := raise_frame n r s
  rw [h]
  rfl
@[simp] theorem raise_link_busyRun (n : EventId) (r : Nat) (s : State) : (raise n r s).link.busyRun = s.link.busyRun := by
  obtain ⟨_, _, _, h⟩ := raise_frame n r s
  rw [h]
  rfl
@[simp] theorem raise_link_busyEnd (n : EventId) (r : Nat) (s : State) : (raise n r s).link.busyEnd = s.link.busyEnd := by
  obtain ⟨_, _, _, h⟩ := raise_frame n r s
  rw [h]
  rfl
@[simp] theorem raise_link_egress (n : EventId) (r : Nat) (s : State) : (raise n r s).link.egress = s.link.egress := by
  obtain ⟨_, _, _, h⟩ := raise_frame n r s
  rw [h]
  rfl
@[simp] theorem raise_link_mbBusy (n : EventId) (r : Nat) (s : State) : (raise n r s).link.mbBusy = s.link.mbBusy := by
  obtain ⟨_, _, _, h⟩ := raise_frame n r s
  rw [h]
  rfl
@[simp] theorem raise_link_mbH2d (n : EventId) (r : Nat) (s : State) : (raise n r s).link.mbH2d = s.link.mbH2d := by
  obtain ⟨_, _, _, h⟩ := raise_frame n r s
  rw [h]
  rfl
@[simp] theorem raise_link_mbD2h (n : EventId) (r : Nat) (s : State) : (raise n r s).link.mbD2h = s.link.mbD2h := by
  obtain ⟨_, _, _, h⟩ := raise_frame n r s
  rw [h]
  rfl
@[simp] theorem raise_link_msixMask (n : EventId) (r : Nat) (s : State) : (raise n r s).link.msixMask = s.link.msixMask := by
  obtain ⟨_, _, _, h⟩ := raise_frame n r s
  rw [h]
  rfl
@[simp] theorem raise_link_vfEnable (n : EventId) (r : Nat) (s : State) : (raise n r s).link.vfEnable = s.link.vfEnable := by
  obtain ⟨_, _, _, h⟩ := raise_frame n r s
  rw [h]
  rfl
@[simp] theorem raise_link_numVfs (n : EventId) (r : Nat) (s : State) : (raise n r s).link.numVfs = s.link.numVfs := by
  obtain ⟨_, _, _, h⟩ := raise_frame n r s
  rw [h]
  rfl
@[simp] theorem raise_link_apBase (n : EventId) (r : Nat) (s : State) : (raise n r s).link.apBase = s.link.apBase := by
  obtain ⟨_, _, _, h⟩ := raise_frame n r s
  rw [h]
  rfl
@[simp] theorem raise_link_apKey (n : EventId) (r : Nat) (s : State) : (raise n r s).link.apKey = s.link.apKey := by
  obtain ⟨_, _, _, h⟩ := raise_frame n r s
  rw [h]
  rfl
@[simp] theorem raise_link_apEn (n : EventId) (r : Nat) (s : State) : (raise n r s).link.apEn = s.link.apEn := by
  obtain ⟨_, _, _, h⟩ := raise_frame n r s
  rw [h]
  rfl
@[simp] theorem raise_link_up (n : EventId) (r : Nat) (s : State) : (raise n r s).link.up = s.link.up := by
  obtain ⟨_, _, _, h⟩ := raise_frame n r s
  rw [h]
  rfl
@[simp] theorem raise_link_width (n : EventId) (r : Nat) (s : State) : (raise n r s).link.width = s.link.width := by
  obtain ⟨_, _, _, h⟩ := raise_frame n r s
  rw [h]
  rfl
@[simp] theorem raise_link_speed (n : EventId) (r : Nat) (s : State) : (raise n r s).link.speed = s.link.speed := by
  obtain ⟨_, _, _, h⟩ := raise_frame n r s
  rw [h]
  rfl
@[simp] theorem raise_link_window (n : EventId) (r : Nat) (s : State) : (raise n r s).link.window = s.link.window := by
  obtain ⟨_, _, _, h⟩ := raise_frame n r s
  rw [h]
  rfl
@[simp] theorem raise_link_early (n : EventId) (r : Nat) (s : State) : (raise n r s).link.early = s.link.early := by
  obtain ⟨_, _, _, h⟩ := raise_frame n r s
  rw [h]
  rfl
@[simp] theorem raise_link_d3hot (n : EventId) (r : Nat) (s : State) : (raise n r s).link.d3hot = s.link.d3hot := by
  obtain ⟨_, _, _, h⟩ := raise_frame n r s
  rw [h]
  rfl
@[simp] theorem raise_link_lastWrite (n : EventId) (r : Nat) (s : State) : (raise n r s).link.lastWrite = s.link.lastWrite := by
  obtain ⟨_, _, _, h⟩ := raise_frame n r s
  rw [h]
  rfl
@[simp] theorem raise_link_ideInsecure (n : EventId) (r : Nat) (s : State) : (raise n r s).link.ideInsecure = s.link.ideInsecure := by
  obtain ⟨_, _, _, h⟩ := raise_frame n r s
  rw [h]
  rfl
@[simp] theorem raise_link_doe (n : EventId) (r : Nat) (s : State) : (raise n r s).link.doe = s.link.doe := by
  obtain ⟨_, _, _, h⟩ := raise_frame n r s
  rw [h]
  rfl
@[simp] theorem raise_ev_route (n : EventId) (r : Nat) (s : State) : (raise n r s).ev.route = s.ev.route := by
  obtain ⟨_, _, _, h⟩ := raise_frame n r s
  rw [h]
  rfl
@[simp] theorem raise_ev_host (n : EventId) (r : Nat) (s : State) : (raise n r s).ev.host = s.ev.host := by
  obtain ⟨_, _, _, h⟩ := raise_frame n r s
  rw [h]
  rfl
@[simp] theorem raise_ev_timers (n : EventId) (r : Nat) (s : State) : (raise n r s).ev.timers = s.ev.timers := by
  obtain ⟨_, _, _, h⟩ := raise_frame n r s
  rw [h]
  rfl
@[simp] theorem raise_core (n : EventId) (r : Nat) (s : State) (c : CoreId) : (raise n r s).core c = s.core c := by simp [State.core]

@[simp] theorem pulse_link_rings (n : Nat) (s : State) : (pulse n s).link.rings = s.link.rings := by
  obtain ⟨_, _, _, h⟩ := pulse_frame n s
  rw [h]
  rfl
@[simp] theorem pulse_link_busyQ (n : Nat) (s : State) : (pulse n s).link.busyQ = s.link.busyQ := by
  obtain ⟨_, _, _, h⟩ := pulse_frame n s
  rw [h]
  rfl
@[simp] theorem pulse_link_busyRun (n : Nat) (s : State) : (pulse n s).link.busyRun = s.link.busyRun := by
  obtain ⟨_, _, _, h⟩ := pulse_frame n s
  rw [h]
  rfl
@[simp] theorem pulse_link_busyEnd (n : Nat) (s : State) : (pulse n s).link.busyEnd = s.link.busyEnd := by
  obtain ⟨_, _, _, h⟩ := pulse_frame n s
  rw [h]
  rfl
@[simp] theorem pulse_link_egress (n : Nat) (s : State) : (pulse n s).link.egress = s.link.egress := by
  obtain ⟨_, _, _, h⟩ := pulse_frame n s
  rw [h]
  rfl
@[simp] theorem pulse_link_mbBusy (n : Nat) (s : State) : (pulse n s).link.mbBusy = s.link.mbBusy := by
  obtain ⟨_, _, _, h⟩ := pulse_frame n s
  rw [h]
  rfl
@[simp] theorem pulse_link_mbH2d (n : Nat) (s : State) : (pulse n s).link.mbH2d = s.link.mbH2d := by
  obtain ⟨_, _, _, h⟩ := pulse_frame n s
  rw [h]
  rfl
@[simp] theorem pulse_link_mbD2h (n : Nat) (s : State) : (pulse n s).link.mbD2h = s.link.mbD2h := by
  obtain ⟨_, _, _, h⟩ := pulse_frame n s
  rw [h]
  rfl
@[simp] theorem pulse_link_msixMask (n : Nat) (s : State) : (pulse n s).link.msixMask = s.link.msixMask := by
  obtain ⟨_, _, _, h⟩ := pulse_frame n s
  rw [h]
  rfl
@[simp] theorem pulse_link_vfEnable (n : Nat) (s : State) : (pulse n s).link.vfEnable = s.link.vfEnable := by
  obtain ⟨_, _, _, h⟩ := pulse_frame n s
  rw [h]
  rfl
@[simp] theorem pulse_link_numVfs (n : Nat) (s : State) : (pulse n s).link.numVfs = s.link.numVfs := by
  obtain ⟨_, _, _, h⟩ := pulse_frame n s
  rw [h]
  rfl
@[simp] theorem pulse_link_apBase (n : Nat) (s : State) : (pulse n s).link.apBase = s.link.apBase := by
  obtain ⟨_, _, _, h⟩ := pulse_frame n s
  rw [h]
  rfl
@[simp] theorem pulse_link_apKey (n : Nat) (s : State) : (pulse n s).link.apKey = s.link.apKey := by
  obtain ⟨_, _, _, h⟩ := pulse_frame n s
  rw [h]
  rfl
@[simp] theorem pulse_link_apEn (n : Nat) (s : State) : (pulse n s).link.apEn = s.link.apEn := by
  obtain ⟨_, _, _, h⟩ := pulse_frame n s
  rw [h]
  rfl
@[simp] theorem pulse_link_up (n : Nat) (s : State) : (pulse n s).link.up = s.link.up := by
  obtain ⟨_, _, _, h⟩ := pulse_frame n s
  rw [h]
  rfl
@[simp] theorem pulse_link_width (n : Nat) (s : State) : (pulse n s).link.width = s.link.width := by
  obtain ⟨_, _, _, h⟩ := pulse_frame n s
  rw [h]
  rfl
@[simp] theorem pulse_link_speed (n : Nat) (s : State) : (pulse n s).link.speed = s.link.speed := by
  obtain ⟨_, _, _, h⟩ := pulse_frame n s
  rw [h]
  rfl
@[simp] theorem pulse_link_window (n : Nat) (s : State) : (pulse n s).link.window = s.link.window := by
  obtain ⟨_, _, _, h⟩ := pulse_frame n s
  rw [h]
  rfl
@[simp] theorem pulse_link_early (n : Nat) (s : State) : (pulse n s).link.early = s.link.early := by
  obtain ⟨_, _, _, h⟩ := pulse_frame n s
  rw [h]
  rfl
@[simp] theorem pulse_link_d3hot (n : Nat) (s : State) : (pulse n s).link.d3hot = s.link.d3hot := by
  obtain ⟨_, _, _, h⟩ := pulse_frame n s
  rw [h]
  rfl
@[simp] theorem pulse_link_lastWrite (n : Nat) (s : State) : (pulse n s).link.lastWrite = s.link.lastWrite := by
  obtain ⟨_, _, _, h⟩ := pulse_frame n s
  rw [h]
  rfl
@[simp] theorem pulse_link_ideInsecure (n : Nat) (s : State) : (pulse n s).link.ideInsecure = s.link.ideInsecure := by
  obtain ⟨_, _, _, h⟩ := pulse_frame n s
  rw [h]
  rfl
@[simp] theorem pulse_link_doe (n : Nat) (s : State) : (pulse n s).link.doe = s.link.doe := by
  obtain ⟨_, _, _, h⟩ := pulse_frame n s
  rw [h]
  rfl
@[simp] theorem pulse_ev_route (n : Nat) (s : State) : (pulse n s).ev.route = s.ev.route := by
  obtain ⟨_, _, _, h⟩ := pulse_frame n s
  rw [h]
  rfl
@[simp] theorem pulse_ev_host (n : Nat) (s : State) : (pulse n s).ev.host = s.ev.host := by
  obtain ⟨_, _, _, h⟩ := pulse_frame n s
  rw [h]
  rfl
@[simp] theorem pulse_ev_timers (n : Nat) (s : State) : (pulse n s).ev.timers = s.ev.timers := by
  obtain ⟨_, _, _, h⟩ := pulse_frame n s
  rw [h]
  rfl
@[simp] theorem pulse_core (n : Nat) (s : State) (c : CoreId) : (pulse n s).core c = s.core c := by simp [State.core]

@[simp] theorem setLine_link_rings (n : Nat) (b : Bool) (r : Nat) (s : State) : (setLine n b r s).link.rings = s.link.rings := by
  obtain ⟨_, _, _, h⟩ := setLine_frame n b r s
  rw [h]
  rfl
@[simp] theorem setLine_link_busyQ (n : Nat) (b : Bool) (r : Nat) (s : State) : (setLine n b r s).link.busyQ = s.link.busyQ := by
  obtain ⟨_, _, _, h⟩ := setLine_frame n b r s
  rw [h]
  rfl
@[simp] theorem setLine_link_busyRun (n : Nat) (b : Bool) (r : Nat) (s : State) : (setLine n b r s).link.busyRun = s.link.busyRun := by
  obtain ⟨_, _, _, h⟩ := setLine_frame n b r s
  rw [h]
  rfl
@[simp] theorem setLine_link_busyEnd (n : Nat) (b : Bool) (r : Nat) (s : State) : (setLine n b r s).link.busyEnd = s.link.busyEnd := by
  obtain ⟨_, _, _, h⟩ := setLine_frame n b r s
  rw [h]
  rfl
@[simp] theorem setLine_link_egress (n : Nat) (b : Bool) (r : Nat) (s : State) : (setLine n b r s).link.egress = s.link.egress := by
  obtain ⟨_, _, _, h⟩ := setLine_frame n b r s
  rw [h]
  rfl
@[simp] theorem setLine_link_mbBusy (n : Nat) (b : Bool) (r : Nat) (s : State) : (setLine n b r s).link.mbBusy = s.link.mbBusy := by
  obtain ⟨_, _, _, h⟩ := setLine_frame n b r s
  rw [h]
  rfl
@[simp] theorem setLine_link_mbH2d (n : Nat) (b : Bool) (r : Nat) (s : State) : (setLine n b r s).link.mbH2d = s.link.mbH2d := by
  obtain ⟨_, _, _, h⟩ := setLine_frame n b r s
  rw [h]
  rfl
@[simp] theorem setLine_link_mbD2h (n : Nat) (b : Bool) (r : Nat) (s : State) : (setLine n b r s).link.mbD2h = s.link.mbD2h := by
  obtain ⟨_, _, _, h⟩ := setLine_frame n b r s
  rw [h]
  rfl
@[simp] theorem setLine_link_msixMask (n : Nat) (b : Bool) (r : Nat) (s : State) : (setLine n b r s).link.msixMask = s.link.msixMask := by
  obtain ⟨_, _, _, h⟩ := setLine_frame n b r s
  rw [h]
  rfl
@[simp] theorem setLine_link_vfEnable (n : Nat) (b : Bool) (r : Nat) (s : State) : (setLine n b r s).link.vfEnable = s.link.vfEnable := by
  obtain ⟨_, _, _, h⟩ := setLine_frame n b r s
  rw [h]
  rfl
@[simp] theorem setLine_link_numVfs (n : Nat) (b : Bool) (r : Nat) (s : State) : (setLine n b r s).link.numVfs = s.link.numVfs := by
  obtain ⟨_, _, _, h⟩ := setLine_frame n b r s
  rw [h]
  rfl
@[simp] theorem setLine_link_apBase (n : Nat) (b : Bool) (r : Nat) (s : State) : (setLine n b r s).link.apBase = s.link.apBase := by
  obtain ⟨_, _, _, h⟩ := setLine_frame n b r s
  rw [h]
  rfl
@[simp] theorem setLine_link_apKey (n : Nat) (b : Bool) (r : Nat) (s : State) : (setLine n b r s).link.apKey = s.link.apKey := by
  obtain ⟨_, _, _, h⟩ := setLine_frame n b r s
  rw [h]
  rfl
@[simp] theorem setLine_link_apEn (n : Nat) (b : Bool) (r : Nat) (s : State) : (setLine n b r s).link.apEn = s.link.apEn := by
  obtain ⟨_, _, _, h⟩ := setLine_frame n b r s
  rw [h]
  rfl
@[simp] theorem setLine_link_up (n : Nat) (b : Bool) (r : Nat) (s : State) : (setLine n b r s).link.up = s.link.up := by
  obtain ⟨_, _, _, h⟩ := setLine_frame n b r s
  rw [h]
  rfl
@[simp] theorem setLine_link_width (n : Nat) (b : Bool) (r : Nat) (s : State) : (setLine n b r s).link.width = s.link.width := by
  obtain ⟨_, _, _, h⟩ := setLine_frame n b r s
  rw [h]
  rfl
@[simp] theorem setLine_link_speed (n : Nat) (b : Bool) (r : Nat) (s : State) : (setLine n b r s).link.speed = s.link.speed := by
  obtain ⟨_, _, _, h⟩ := setLine_frame n b r s
  rw [h]
  rfl
@[simp] theorem setLine_link_window (n : Nat) (b : Bool) (r : Nat) (s : State) : (setLine n b r s).link.window = s.link.window := by
  obtain ⟨_, _, _, h⟩ := setLine_frame n b r s
  rw [h]
  rfl
@[simp] theorem setLine_link_early (n : Nat) (b : Bool) (r : Nat) (s : State) : (setLine n b r s).link.early = s.link.early := by
  obtain ⟨_, _, _, h⟩ := setLine_frame n b r s
  rw [h]
  rfl
@[simp] theorem setLine_link_d3hot (n : Nat) (b : Bool) (r : Nat) (s : State) : (setLine n b r s).link.d3hot = s.link.d3hot := by
  obtain ⟨_, _, _, h⟩ := setLine_frame n b r s
  rw [h]
  rfl
@[simp] theorem setLine_link_lastWrite (n : Nat) (b : Bool) (r : Nat) (s : State) : (setLine n b r s).link.lastWrite = s.link.lastWrite := by
  obtain ⟨_, _, _, h⟩ := setLine_frame n b r s
  rw [h]
  rfl
@[simp] theorem setLine_link_ideInsecure (n : Nat) (b : Bool) (r : Nat) (s : State) : (setLine n b r s).link.ideInsecure = s.link.ideInsecure := by
  obtain ⟨_, _, _, h⟩ := setLine_frame n b r s
  rw [h]
  rfl
@[simp] theorem setLine_link_doe (n : Nat) (b : Bool) (r : Nat) (s : State) : (setLine n b r s).link.doe = s.link.doe := by
  obtain ⟨_, _, _, h⟩ := setLine_frame n b r s
  rw [h]
  rfl
@[simp] theorem setLine_ev_route (n : Nat) (b : Bool) (r : Nat) (s : State) : (setLine n b r s).ev.route = s.ev.route := by
  obtain ⟨_, _, _, h⟩ := setLine_frame n b r s
  rw [h]
  rfl
@[simp] theorem setLine_ev_host (n : Nat) (b : Bool) (r : Nat) (s : State) : (setLine n b r s).ev.host = s.ev.host := by
  obtain ⟨_, _, _, h⟩ := setLine_frame n b r s
  rw [h]
  rfl
@[simp] theorem setLine_ev_timers (n : Nat) (b : Bool) (r : Nat) (s : State) : (setLine n b r s).ev.timers = s.ev.timers := by
  obtain ⟨_, _, _, h⟩ := setLine_frame n b r s
  rw [h]
  rfl
@[simp] theorem setLine_core (n : Nat) (b : Bool) (r : Nat) (s : State) (c : CoreId) : (setLine n b r s).core c = s.core c := by simp [State.core]

@[simp] theorem settleUnits_ev_route (t : Nat) (s : State) : (settleUnits t s).ev.route = s.ev.route := by
  obtain ⟨_, _, _, _, _, _, _, _, h, -⟩ := settleUnits_frame t s
  rw [h]
  rfl
@[simp] theorem settleUnits_ev_host (t : Nat) (s : State) : (settleUnits t s).ev.host = s.ev.host := by
  obtain ⟨_, _, _, _, _, _, _, _, h, -⟩ := settleUnits_frame t s
  rw [h]
  rfl
@[simp] theorem settleUnits_ev_line (t : Nat) (s : State) : (settleUnits t s).ev.line = s.ev.line := by
  obtain ⟨_, _, _, _, _, _, _, _, h, -⟩ := settleUnits_frame t s
  rw [h]
  rfl
@[simp] theorem settleUnits_ev_timers (t : Nat) (s : State) : (settleUnits t s).ev.timers = s.ev.timers := by
  obtain ⟨_, _, _, _, _, _, _, _, h, -⟩ := settleUnits_frame t s
  rw [h]
  rfl
@[simp] theorem settleUnits_core_regs (t : Nat) (s : State) (c : CoreId) : ((settleUnits t s).core c).regs = (s.core c).regs := by
  obtain ⟨_, _, _, _, _, _, _, _, -, h⟩ := settleUnits_frame t s
  obtain ⟨p, q, h⟩ := h c
  rw [h]
@[simp] theorem settleUnits_core_x (t : Nat) (s : State) (c : CoreId) : ((settleUnits t s).core c).x = (s.core c).x := by
  obtain ⟨_, _, _, _, _, _, _, _, -, h⟩ := settleUnits_frame t s
  obtain ⟨p, q, h⟩ := h c
  rw [h]
@[simp] theorem settleUnits_core_dp (t : Nat) (s : State) (c : CoreId) : ((settleUnits t s).core c).dp = (s.core c).dp := by
  obtain ⟨_, _, _, _, _, _, _, _, -, h⟩ := settleUnits_frame t s
  obtain ⟨p, q, h⟩ := h c
  rw [h]
@[simp] theorem settleUnits_core_seq (t : Nat) (s : State) (c : CoreId) : ((settleUnits t s).core c).seq = (s.core c).seq := by
  obtain ⟨_, _, _, _, _, _, _, _, -, h⟩ := settleUnits_frame t s
  obtain ⟨p, q, h⟩ := h c
  rw [h]
@[simp] theorem settleUnits_core_ms (t : Nat) (s : State) (c : CoreId) : ((settleUnits t s).core c).ms = (s.core c).ms := by
  obtain ⟨_, _, _, _, _, _, _, _, -, h⟩ := settleUnits_frame t s
  obtain ⟨p, q, h⟩ := h c
  rw [h]

end Sys2Proof.Machine
end

