-- ==== Sys2Proof/Laws/Issue.lean ====
section
/-! SUPPORT. What the issue of an instruction does at a boundary where nothing stands before it: the one lemma that the
statements about instructions go through. -/
namespace Sys2Proof.Machine

/-- A form asks of DE what a demand says. -/
def Form.asks (f : Form) (d : Demand) : Prop :=
  (f.ext != .none) = d.ext ∧ f.banned = d.banned ∧ f.rptOk = d.rptOk ∧ f.writes = d.writes

/-- DE finds nothing where the prefix, the slot group and the repeat in force allow a legal form. -/
theorem deFault_none {k : Core} {f : Form} {d : Demand} (hf : f.asks d) (hl : f.legal = true)
    (hi : (k.seq.imm.isNone || d.ext) = true) (hb : (!(d.banned && inGroup k.seq)) = true)
    (hr : (match k.seq.rpt with
      | some r => d.rptOk && !(d.writes.contains r.gc) && r.left != 0
      | none => true) = true) : deFault k f = none := by
  obtain ⟨h1, h2, h3, h4⟩ := hf
  rw [← h1] at hi
  rw [← h2] at hb
  rw [← h3, ← h4] at hr
  unfold deFault
  cases hq : k.seq.rpt <;> cases hm : k.seq.imm <;> cases he : f.ext <;>
    cases hx : d.banned <;> simp_all [List.contains_iff_mem]

/-- The parts of `clear`. -/
theorem clear_parts {s : State} {c : CoreId} {cond : Cond} {d : Demand} (h : clear s c cond d = true) :
    canIssue (arrived s c) c = true ∧ ((arrived s c).core c).seq.str = none ∧ ((arrived s c).core c).seq.trap = none ∧
    (boundary s c).eccSoft.isEmpty = true ∧
    baseDue c (issueCycle s c) (boundary s c) = none ∧ impreciseDue c (issueCycle s c) false (atIssue s c) = none ∧
    (accepts ((boundary s c).core c).seq = true → nativeEventDue (atIssue s c) c (issueCycle s c) = none) ∧
    ((operandCore s c).seq.imm.isNone || d.ext) = true ∧
    (!(d.banned && inGroup (operandCore s c).seq)) = true ∧
    (match (operandCore s c).seq.rpt with
      | some r => d.rptOk && !(d.writes.contains r.gc) && r.left != 0
      | none => true) = true ∧
    condHolds cond (operandCore s c).x.status = true := by
  simp only [clear, Bool.and_eq_true, Option.isNone_iff_eq_none] at h
  obtain ⟨⟨⟨⟨⟨⟨⟨⟨⟨⟨h1, h0⟩, h9⟩, h10⟩, h2⟩, h3⟩, h4⟩, h5⟩, h6⟩, h7⟩, h8⟩ := h
  refine ⟨h1, h0, h9, h10, h2, h3, ?_, h5, h6, h7, h8⟩
  intro ha
  simpa [ha] using h4

/-- Reading a repeated count changes data registers only. -/
theorem withCount_core (c : CoreId) (s : State) :
    ((withCount c s).core c).seq = (s.core c).seq ∧ ((withCount c s).core c).x = (s.core c).x := by
  unfold withCount
  split
  · simp only [State.modCore, State.setCore, State.core, Core.setReg, Fin.getElem_fin, Vector.getElem_set_self]
    split <;> exact ⟨rfl, rfl⟩
  · exact ⟨rfl, rfl⟩

/-- DE looks at the sequencing and the PCC alone. -/
theorem deFault_congr {k k' : Core} (f : Form) (hq : k.seq = k'.seq) (hx : k.x = k'.x) : deFault k f = deFault k' f := by
  simp only [deFault, Core.pc, hq, hx]

/-- The verdict on an instruction where nothing stands before it is its own body. -/
theorem verdict_of_clear {s : State} {c : CoreId} {cond : Cond} {d : Demand} {f : Form} {body : Nat → State → Body}
    (h : clear s c cond d = true) (hf : f.asks d) (hc : f.cond = cond) (hl : f.legal = true) :
    verdict c f body (issueCycle s c) (atIssue s c) = .run (body (issueCycle s c) (operands s c)) := by
  obtain ⟨-, -, -, -, -, -, -, h5, h6, h7, h8⟩ := clear_parts h
  obtain ⟨hq, hx⟩ := withCount_core c (atIssue s c)
  have hd := deFault_none (k := operandCore s c) hf hl h5 h6 h7
  have hd' : deFault ((atIssue s c).core c) f = none := (deFault_congr f hq hx).symm.trans hd
  simp only [operandCore, operands, hq, hx] at h7 h8
  simp only [verdict, hd']
  cases hr : ((atIssue s c).core c).seq.rpt with
  | none => simp [hc, h8, operands]
  | some r => simp only [hr] at h7; simp_all [operands]

/-- Where no word holds a single-bit error, the fetch changes nothing. -/
theorem softFetch_none {c : CoreId} {s0 : State} {v : Verdict} {s : State} (h : s0.eccSoft.isEmpty = true) :
    softFetch c s0 v s = s := by
  simp [softFetch, h]

/-- An instruction that nothing stands before and whose body completes leaves what `finish` makes of its state. -/
theorem issue_done {s : State} {c : CoreId} {cond : Cond} {d : Demand} {f : Form} {body : Nat → State → Body} {cost : Nat}
    {u : State} (h : clear s c cond d = true) (hf : f.asks d) (hc : f.cond = cond) (hl : f.legal = true)
    (hb : body (issueCycle s c) (operands s c) = .done cost u) :
    issue c f body s = .next (finish c (issueCycle s c) cost (operandCore s c).seq u) := by
  obtain ⟨h1, h0, h9, h10, h2, h3, h4, -⟩ := clear_parts h
  have hv := verdict_of_clear (body := body) h hf hc hl
  rw [hb] at hv
  simp only [arrived] at h1 h0 h9
  simp only [issue, issueState, h1, h0, h9, Bool.not_true, Bool.false_eq_true, ↓reduceIte]
  refine congrArg _ ((softFetch_none h10).trans ?_)
  show resolve c f (issueCycle s c) (boundary s c) (atIssue s c) (verdict c f body (issueCycle s c) (atIssue s c)) = _
  rw [hv]
  unfold resolve
  rw [h2]
  simp only [Verdict.precise, Verdict.machine, Bool.false_eq_true, ↓reduceIte]
  simp only [h3, carryOut, operandCore, operands, (withCount_core c (atIssue s c)).1]
  split
  · rename_i ha
    simp only [h4 ha]
  · rfl

/-- The same with the effect of the body named. -/
theorem issue_issued {s : State} {c : CoreId} {cond : Cond} {d : Demand} {f : Form} {body : Nat → State → Body} {cost : Nat}
    {effect : State → State} (h : clear s c cond d = true) (hf : f.asks d) (hc : f.cond = cond) (hl : f.legal = true)
    (hb : body (issueCycle s c) (operands s c) = .done cost (effect (operands s c))) :
    issue c f body s = .next (issued s c cost effect) := issue_done h hf hc hl hb

/-- Where nothing is timed, an instruction comes to its boundary in the cycle that it could begin, and nothing has changed. -/
theorem nextBoundary_of_quiet (s : State) (c : CoreId) (h : s.timed = []) : nextBoundary c s = (issueTime s c, s) := by
  simp [nextBoundary, h]

end Sys2Proof.Machine
end

