-- ==== Sys2Proof/WellFormed.lean ====
section
/-! DEFINITION. What outside can send: the operands that are lists or unbounded numbers, within what the spec lets the host, a
pin or a line give. Every other operand is bounded by its type. -/
namespace Sys2Proof

/-- A byte list of 1 to n bytes. -/
def listOf (n : Nat) (bytes : List Byte) : Bool := decide (1 ≤ bytes.length) && decide (bytes.length ≤ n)

/-- An image of at most 8 MB, where there is one (R488, R490). -/
def imageFits : Option (List Byte) → Bool
  | none => true
  | some m => decide (m.length ≤ 8388608)

/-- What the host answers to a burst: a read brings at most a maximum read request, 4 KB (R456). -/
def replyFits : HostReply → Bool
  | .data bytes => listOf 4096 bytes
  | .none | .taken | .error => true

/-- An access of the host: 1 to 4,096 bytes that do not run past the 1 GB of the largest BAR (R427, R431). -/
def accessFits (off : Nat) : HostAccess → Bool
  | .read len => decide (1 ≤ len) && decide (len ≤ 4096) && decide (off + len ≤ 2 ^ 30)
  | .write bytes => listOf 4096 bytes && decide (off + bytes.length ≤ 2 ^ 30)

/-- A command that the outside can send. -/
def Instr.wellFormed : Instr → Bool
  | .thermalSample raw => decide (raw.length = 16)
  | .hostSlotWrite place bytes => decide (1 ≤ bytes.length) && decide (place.off.toNat + bytes.length ≤ 2 ^ 24)
  | .moverBurst _ reply => replyFits reply
  | .hostApertureAccess place access => accessFits place.off.toNat access
  | .doeRequest len => decide (1 ≤ len) && decide (len ≤ 4096)
  | .tsppsEdge ticks => decide (1 ≤ ticks)
  | .rstN ns => decide (1 ≤ ns)
  | .smbusBlockWrite bytes _ => decide (bytes.length ≤ 255)
  | .qspiReadComplete bytes => listOf 16777216 bytes
  | .bootSequence inp => imageFits inp.copyA && imageFits inp.copyB && imageFits inp.pushed
  | .add .. | .sub .. | .adc .. | .sbc .. | .neg .. | .and .. | .or .. | .xor .. | .andn .. | .cmp .. | .tst ..
  | .sll .. | .srl .. | .sra .. | .rol .. | .ror .. | .clz .. | .popc .. | .addi .. | .subi .. | .andi .. | .ori ..
  | .xori .. | .cmpi .. | .slli .. | .srli .. | .srai .. | .roli .. | .rori .. | .mul .. | .mulu .. | .mulh ..
  | .mulhu .. | .div .. | .divu .. | .rem .. | .remu .. | .dsteps .. | .dstepsu .. | .dstep .. | .dstepu ..
  | .dstepf .. | .ldb .. | .ldbu .. | .ldh .. | .ldhu .. | .ldw .. | .ldwu .. | .ldd .. | .lddu .. | .ldq ..
  | .ldcap .. | .stb .. | .sth .. | .stw .. | .std .. | .stq .. | .stcap .. | .b .. | .bl .. | .br .. | .brl ..
  | .nop .. | .mfs .. | .mts .. | .svc .. | .basecall .. | .xret .. | .imm .. | .rpt .. | .dadd .. | .dsub ..
  | .dmul .. | .ddiv .. | .dcmp .. | .dtst .. | .dcvb .. | .dcvd .. | .dsrr .. | .dld .. | .dst .. | .daddm ..
  | .dsubm .. | .pack .. | .unpk .. | .mvb .. | .mvbl .. | .clcb .. | .scb .. | .trb .. | .trt .. | .u8v .. | .edb ..
  | .edm .. | .fldw .. | .vadd .. | .vsub .. | .vmul .. | .vand .. | .vor .. | .vxor .. | .vsll .. | .vsrl ..
  | .vsra .. | .vmin .. | .vmax .. | .vminu .. | .vmaxu .. | .vcmpeq .. | .vcmplt .. | .vcmpltu .. | .vfadd ..
  | .vfsub .. | .vfmul .. | .vffma .. | .vfmin .. | .vfmax .. | .vfcmpeq .. | .vfcmplt .. | .vfcmple .. | .vfcvtsw ..
  | .vfcvtws .. | .vdadd .. | .vdsub .. | .vdtst .. | .vdcmpeq .. | .vdcmplt .. | .vdsrr .. | .vdsum .. | .vld ..
  | .vldd .. | .vst .. | .vstd .. | .vgathq .. | .vgathd .. | .vgathw .. | .vscatq .. | .vscatd .. | .vscatw ..
  | .vtrb .. | .vsplat .. | .vmovg .. | .vmovw .. | .kand .. | .kor .. | .kxor .. | .kandn .. | .knot .. | .kmovg ..
  | .kmovk .. | .fadd .. | .fsub .. | .fmul .. | .ffma .. | .fdiv .. | .fsqrt .. | .fmin .. | .fmax .. | .fcmp ..
  | .fneg .. | .fabs .. | .fcvtsw .. | .fcvtws .. | .fdstepd .. | .fdstepr .. | .fdstep .. | .fdstepf .. | .cmov ..
  | .cgetbase .. | .cgetlen .. | .cgettag .. | .csetaddr .. | .cincaddr .. | .csetb .. | .candp .. | .csetkey ..
  | .cseal .. | .cunseal .. | .ctstsub .. | .cprec .. | .calgn .. | .cinvoke .. | .keyw .. | .keyr .. | .evraise ..
  | .evack .. | .evclr .. | .evnext .. | .esub .. | .jcommit .. | .wpjoin .. | .wpleave .. | .msub .. | .dpwait ..
  | .xop .. | .microAdd .. | .microSub .. | .microAdc .. | .microSbc .. | .microAnd .. | .microOr .. | .microXor ..
  | .microAndn .. | .microSll .. | .microSrl .. | .microSra .. | .microRol .. | .microRor .. | .microClz ..
  | .microPopc .. | .dval .. | .daddx .. | .dsubx .. | .dsl1 .. | .dsr1 .. | .dmd .. | .dcmpm .. | .dsgn .. | .getb ..
  | .putb .. | .getn .. | .putn .. | .sreg .. | .microAddi .. | .microAndi .. | .microOri .. | .shi .. | .lit ..
  | .mld .. | .mst .. | .mchk .. | .adv .. | .setf .. | .microBr .. | .loop .. | .call .. | .microRet .. | .yield ..
  | .exit .. | .trapIllegal .. | .trapArithmetic .. | .vectorEntryBeats .. | .vectorEntryComplete ..
  | .heldRaiseDelivery .. | .timerFire .. | .engineQueueEntry .. | .engineFetch .. | .engineWriteback ..
  | .engineCompletion .. | .ecdsaP256Sign .. | .ecdsaP256Verify .. | .ecdsaP384Sign .. | .ecdsaP384Verify ..
  | .ed25519Sign .. | .ed25519Verify .. | .ecdhP256 .. | .ecdhP384 .. | .keyPairGenerationP256 ..
  | .keyPairGenerationP384 .. | .keyPairGenerationEd25519 .. | .rsaSign2048 .. | .rsaSign3072 .. | .rsaSign4096 ..
  | .rsaVerify2048 .. | .rsaVerify3072 .. | .rsaVerify4096 .. | .idsign .. | .aesEcb .. | .aesCbc .. | .aesGcm ..
  | .aesCmac .. | .tdesEcb .. | .tdesCbc .. | .sha256 .. | .sha384 .. | .sha3256 .. | .hmacSha256 .. | .hmacSha384 ..
  | .pinTranslation .. | .rand .. | .kgen .. | .kimp .. | .kpub .. | .kexp .. | .krst .. | .kdel .. | .zeroisation ..
  | .ksctlZero .. | .dmkErase .. | .drbgReseed .. | .drbgctlRestart .. | .drbgStartupTest .. | .wpjoinTimeout ..
  | .witnessActCompare .. | .commitQueueEntry .. | .payloadFetch .. | .payloadFetchEnd .. | .entryHash ..
  | .entryChaining .. | .entryRelease .. | .checkpointTimer .. | .jctlCkpt .. | .jctlEn .. | .chainStart ..
  | .jrcons .. | .checkpointDigest .. | .checkpointSignatureWrite .. | .headPartWrite .. | .headPartWriteEnd ..
  | .signaturePartWrite .. | .signaturePartWriteEnd .. | .moverDescriptorStart .. | .moverCompletion ..
  | .mchcfgEnClear .. | .dpctlGo .. | .dpResponse .. | .dpdataRead .. | .dpdataWrite .. | .microWatchdog ..
  | .xopLoaderGo .. | .xopLoadVerifyResult .. | .xopWordWrite .. | .xopLoadInstall .. | .storeBufferDrain ..
  | .globalAccessPerform .. | .globalLoadComplete .. | .blockReadReturn .. | .scrubRowDue .. | .scrubRow ..
  | .scrubberStarved .. | .eccaddrValidClear .. | .nativeEntry .. | .baseEntry .. | .crhold ..
  | .coreResetHoldApplied .. | .coreResetRelease .. | .cfglockLock .. | .idb .. | .admissionWindowStart .. | .arrive ..
  | .epost .. | .egressTransferStart .. | .egressHandover .. | .busyResponseStart .. | .busyHandover ..
  | .rctlEnable .. | .ringReset .. | .rctlDisable .. | .functionLevelReset .. | .vfEnableClear .. | .linkStateChange ..
  | .pciePerst .. | .tlpError .. | .mbh2d .. | .mbd2h .. | .ideStreamError .. | .clkctlLean .. | .clockModeSwitch ..
  | .clockLoss .. | .taiSecondWrap .. | .syncTimeout .. | .supplyWarning .. | .supplyWarningRelease ..
  | .mramWriteInhibit .. | .mramInhibitEnd .. | .supplyReset .. | .powerOnReset .. | .devrst .. | .deviceReset ..
  | .supplyTelemetryTick .. | .tamperInput .. | .trimwr .. | .trimRewriteComplete .. | .okhprogGo ..
  | .okhProgrammingComplete .. | .hbmRefreshRateChange .. | .hbmPatrolPassComplete .. | .hbmPhyError .. | .uarttx ..
  | .uartrx .. | .uartByteReceived .. | .uartByteSent .. | .smbusBlockRead .. | .smbusAlertResponse .. | .smbrxpop ..
  | .smbtxctlGo .. | .qspictlGo .. | .gpioInputChange .. | .tapReset .. | .idcode .. | .samplePreload .. | .extest ..
  | .extestPulse .. | .extestTrain .. | .clamp .. | .highz .. | .iddata .. | .bypass .. | .registerWrite ..
  | .continuousTestFailure .. | .tsclkLoss .. | .tsclkReturn .. | .patrolScrub .. | .vfEnableSet .. => true

end Sys2Proof
end

