-- ==== Sys2Proof/Tests/Slice0.lean ====
section
/-! SUPPORT. Tests on small states: what the outside cannot send is refused; worked examples of the spec; and for the statements
about commands, states and operands that meet the hypotheses of each of their clauses together. -/
set_option maxRecDepth 8000
namespace Sys2Proof.Tests
set_option Elab.async false
open Sys2Proof.Machine

/-! ## Ill-formed commands -/

theorem test_wf_thermal : (Instr.thermalSample []).wellFormed = false := by decide
theorem test_wf_slot_empty : (Instr.hostSlotWrite ⟨1, 0⟩ []).wellFormed = false := by decide
theorem test_wf_slot_end : (Instr.hostSlotWrite ⟨1, 0xFFFFFF⟩ [1, 2]).wellFormed = false := by decide
theorem test_wf_burst : (Instr.moverBurst 0 (.data [])).wellFormed = false := by decide
theorem test_wf_aperture_read : (Instr.hostApertureAccess ⟨.bar4, 0⟩ (.read 0)).wellFormed = false := by decide
theorem test_wf_aperture_write : (Instr.hostApertureAccess ⟨.bar4, 0x3FFFFFFF⟩ (.write [1, 2])).wellFormed = false := by decide
theorem test_wf_doe : (Instr.doeRequest 4097).wellFormed = false := by decide
theorem test_wf_tspps : (Instr.tsppsEdge 0).wellFormed = false := by decide
theorem test_wf_rstn : (Instr.rstN 0).wellFormed = false := by decide
theorem test_wf_smbus : (Instr.smbusBlockWrite (List.replicate 256 0) true).wellFormed = false := by decide
theorem test_wf_qspi : (Instr.qspiReadComplete []).wellFormed = false := by decide
theorem test_wf_image (m : List Byte) (h : m.length = 8388609) (b : BootInput) (hb : b.copyA = some m) :
    (Instr.bootSequence b).wellFormed = false := by
  show (imageFits b.copyA && imageFits b.copyB && imageFits b.pushed) = false
  simp [hb, imageFits, h]
theorem test_wf_add : (Instr.add 0 14 2 3 4 5).wellFormed = true := by decide

/-! ## Small states -/

/-- A register of core 0 given a value. -/
def withReg (r : Reg) (v : TWord) (s : State) : State := s.modRegs 0 fun g => { g with g := g.g.set r v }
/-- A plain number in a register of core 0. -/
def withNum (r : Reg) (n : Nat) (s : State) : State := withReg r (TWord.plain (BitVec.ofNat 128 n)) s
/-- The root capability at an address. -/
def capAt (a : Nat) : TWord := { rootCap with val := setAddr rootCap.val (BitVec.ofNat 52 a) }
/-- The same without some permissions. -/
def capWithout (a : Nat) (p : BitVec 14) : TWord :=
  { rootCap with val := setPerms (setAddr rootCap.val (BitVec.ofNat 52 a)) (capPerms rootCap.val &&& ~~~p) }
/-- The exception registers of core 0 changed. -/
def withX (f : ExcRegs → ExcRegs) (s : State) : State := s.modX 0 f
/-- A capability over n bytes from address a on (R277). -/
def bounded (a n : Nat) : TWord := match setBounds (capAt a) n with
  | some r => r.1
  | none => TWord.null
/-- Core 0 at native level, with a valid frame ring and vector base. -/
def atNative : State := withX (fun x => { x with depth := 0, status := 0x000F0000, ivec := { capAt 0x100200 with val := setOtype (capAt 0x100200).val 5 }, xframe := bounded 0 4096 }) State.reset
/-- What a command answers, as a state; the state itself where it does not go on. -/
def ran (i : Instr) (s : State) : State :=
  match exec i s with
  | .next t => t
  | _ => s
/-- A register of core 0 once every write in flight is done. -/
def gets (s : State) (r : Reg) : Word := (retire (s.now + 1000) (s.core 0)).reg r |>.val

/-! ## Worked examples of the spec -/

/-- R113: -7 divided by 2 in steps, after 16 pairs of trials. -/
theorem test_division_steps : Nat.repeat (divTrial 32 2) 32 (0, 7) = (1, 3) := by decide
/-- R25: the amount +123 with sign 0xC. -/
theorem test_dec_read : decRead 0x123C = some { mag := 123, minus := false } := by decide
/-- R33: -123450 as a 6-byte zoned field. -/
theorem test_zoned : (decUnpack false 6 { mag := 123450, minus := true }).1 = [0x31, 0x32, 0x33, 0x34, 0x35, 0x70] := by decide
/-- R136: the values of its table, in tenths. -/
theorem test_rounding : ([0, 1, 2, 3, 4, 5].map fun m => [roundMag m false 25 10, roundMag m false 35 10, roundMag m false 24 10,
    roundMag m false 26 10, roundMag m true 25 10, roundMag m true 24 10, roundMag m true 4 10]) =
    [[3, 4, 2, 3, 3, 2, 0], [2, 4, 2, 3, 2, 2, 0], [2, 3, 2, 2, 2, 2, 0], [3, 4, 3, 3, 3, 3, 1], [2, 3, 2, 2, 3, 3, 1],
      [3, 4, 3, 3, 2, 2, 0]] := by decide
/-- R104: NEG of the most negative value. -/
theorem test_neg_min : gets (ran (.neg 0 14 0 3 4) (withNum 4 0x80000000 State.reset)) 3 =
    0xFFFFFFFFFFFFFFFFFFFFFFFF80000000 := by decide
/-- R97: the prefix of the worked example extends ADDI. -/
theorem test_prefix : gets (ran (.addi 0 14 2 3 1 0x345) (ran (.imm 0 14 0x48) (withNum 1 1 State.reset))) 3 = 0x12346 := by decide
/-- R66, R68: BL links past its two delay slots. -/
theorem test_link : capAddr (gets (ran (.bl 0 14 16) State.reset) 30) = 0x10000C := by decide
/-- R313, R316: SVC at native level enters at IVEC with the code in XINFO. -/
theorem test_svc : let u := ran (.svc 0 14 0x123) atNative
    (u.core 0).pc = 0x100200 ∧ (u.core 0).x.cause = 0x0B ∧ (u.core 0).x.xinfo = 0x123 ∧ (u.core 0).x.status = 0x008F0000 := by decide
/-- R486: a store of the key makes a device reset due; another value does not. -/
theorem test_devrst : (ran (.devrst 0x52535421) State.reset).pw.resetDue = some (1000, 0x20) ∧
    (ran (.devrst 0x52535420) State.reset).pw.resetDue = none := by decide
/-- R521: IDCODE of the FD-640 grades. -/
theorem test_idcode : (ran .idcode State.reset).sb.tapDr = (List.range 32).map (fun i => (0xB06409D7 : Nat).testBit i) := by decide
/-- R164: the UTF-8 sequence of U+20AC; an overlong form is none. -/
theorem test_utf8 : u8Next [0xE2, 0x82, 0xAC] = .point 0x20AC 3 ∧ (∀ p n, u8Next [0xC0, 0x80] ≠ .point p n) := by
  constructor
  · decide
  · intro p n h
    have : (match u8Next [0xC0, 0x80] with | .point _ _ => true | _ => false) = false := by decide
    rw [h] at this
    cases this

/-! ## Witnesses: issue, integer instructions, loads and stores -/

/-- Core 0 at legacy level (R297). -/
def atLegacy : State := withX (fun x => { x with depth := 0, status := 0x080F0000 }) State.reset
/-- The sequencing of core 0 changed. -/
def withSeq (f : Seq → Seq) (s : State) : State := s.modSeq 0 f
/-- The state of reset with the numbers a and b in registers 4 and 5 of core 0. -/
def nums (a b : Nat) : State := withNum 4 a (withNum 5 b State.reset)
/-- The state of reset with a capability at address a in register 4 of core 0, and a value in register 3. -/
def at4 (a : Nat) : State := withReg 4 (capAt a) (withNum 3 0x1234 State.reset)
/-- Cores 0 and 1 as a formed pair. -/
def asPair (s : State) : State := s.modPair 0 fun p => { p with formed := true }
/-- A register instruction of core 0 that writes register 3. -/
def plain3 : Demand := { rptOk := true, writes := [3] }

theorem test_witness_MemoryReadsWhatWasWritten : Memory.wf (memWrite [] 5 [1, 2]) = true ∧ ¬(5 ≤ 4 ∧ 4 < 5 + 2) ∧ (5 ≤ 5 ∧ 5 < 5 + 2) ∧
    (5 ≤ 6 ∧ 6 < 5 + 2) ∧ ¬(5 ≤ 7 ∧ 7 < 5 + 2) ∧ attBase - 2 + [1, 2].length ≤ attBase ∧ ldsBase 0 + 0 = ldsBase 0 := by decide
theorem test_witness_EveryStepKeepsMemoryCanonical : let s := { at4 0x100000 with pending := [.stw 0 14 3 4 0] }
    Memory.wf s.mem = true ∧ Memory.wf s.fkeys = true ∧
    (match step s with | .next u => (settle 3 u).bytes (lisBase 0) 4 | _ => []) = [0x34, 0x12, 0, 0] := by decide
theorem test_witness_WritesReachTheirRegisters :
    let s := withSeq (fun q => { q with wseq := 2, inflight := [{ due := 5, seq := 1, what := .reg 3 TWord.null }] }) State.reset
    (∀ w ∈ (s.core 0).seq.inflight, w.seq < (s.core 0).seq.wseq) ∧
    (s.core 0).seq.inflight.Pairwise (fun x y => x.due < y.due ∨ (x.due = y.due ∧ x.seq < y.seq)) ∧
    (∀ w ∈ (s.core 0).seq.inflight, 5 ≤ 5 → w.due ≤ 5 → w.due ≤ 5) ∧
    seenReg (pushFlags 0 5 1 1 (pushCap 0 5 3 rootCap s)) 0 5 3 = rootCap ∧
    seenReg (pushFlags 0 5 1 1 (pushCap 0 5 3 rootCap s)) 0 4 3 = TWord.null := by decide
/-- A branch in progress. -/
def branching (left : Nat) (taken : Bool) : State :=
  withSeq (fun q => { q with branch := some { left := left, taken := taken, target := capAt 0x100400, invoked := none, seq := 0 } }) State.reset
theorem test_witness_InstructionsFollowAndBranch :
    (operandCore State.reset 0).seq.rpt = none ∧ (operandCore State.reset 0).seq.branch = none ∧
    ((operandCore (branching 2 true) 0).seq.branch.map fun b => (b.left, b.taken)) = some (2, true) ∧
    ((operandCore (branching 1 true) 0).seq.branch.map fun b => (b.left, b.taken)) = some (1, true) ∧
    ((operandCore (branching 1 false) 0).seq.branch.map fun b => (b.left, b.taken)) = some (1, false) ∧
    clear (at4 0x100400) 0 14 { banned := true } = true ∧ targetFault ((at4 0).core 0).x.pcc.val 0x100010 32 = none ∧
    hasPerm ((operandCore (at4 0x100400) 0).reg 4).val permEX = true ∧ targetFault (capAt 0x100400).val 0x100400 4 = none ∧
    clear atLegacy 0 14 { banned := true } = true ∧ (operandCore atLegacy 0).legacy = true := by decide
theorem test_witness_SumsAndDifferences : clear (nums 7 9) 0 14 plain3 = true ∧ clear (nums 7 9) 0 14 { rptOk := true } = true ∧
    clear (nums 7 9) 0 14 { rptOk := true, ext := true, writes := [3] } = true ∧
    clear (nums 7 9) 0 14 { rptOk := true, ext := true } = true := by decide
theorem test_witness_LogicShiftsAndRotates : clear (nums 0x80000001 31) 0 14 plain3 = true ∧
    [0, 31, 32, 33].map (fun n => ((operandCore (nums 0x80000001 n) 0).reg 5).val.toNat % 256) = [0, 31, 32, 33] := by decide
theorem test_witness_ProductsAndQuotients : clear (nums 7 0) 0 14 { rptOk := true, banned := true, writes := [3] } = true ∧
    stepDue (nums 7 0) 0 = false ∧ lowBits 32 ((operandCore (nums 7 0) 0).reg 5).val = 0 ∧
    lowBits 32 ((operandCore (nums 7 1) 0).reg 5).val ≠ 0 ∧
    (operandCore (nums 7 0) 0).seq.imprecise = none ∧ (operandCore (nums 7 0) 0).seq.imm = none := by decide
theorem test_witness_DivisionSteps : clear (nums 7 2) 0 14 { rptOk := true, writes := [6, pairReg 6] } = true ∧
    Nat.repeat (divTrial 8 255) 8 (0, 255) = (0, 1) ∧ Nat.repeat (divTrial 8 1) 8 (0, 255) = (0, 255) := by decide
/-- A load or store of core 0 through register 4 passes its checks and meets no hold. -/
def passes (s : State) (n : Nat) (kind : AccKind) (needs : Needs) : Bool :=
  clear s 0 14 { ext := true } && (accessFault (operands s 0) 0 (authOf (operands s 0) 0 4 0) n kind).isNone &&
  (accessHeld (operandCore s 0) (issueCycle s 0) needs).isNone
theorem test_witness_ScalarLoads : [0, 0x7FFF0, 0x100000, globalBase].all (fun a => passes (at4 a) 16 .load (loadNeeds 0 a 16)) = true ∧
    passes (at4 0) 16 .loadCap (loadNeeds 0 0 16) = true ∧ regionOf 0 0 16 = some (.lds (ldsBase 0)) ∧
    regionOf 0 0x100000 16 = some (.lis (lisBase 0)) ∧ regionOf 0 globalBase 16 = some (.global globalBase) ∧
    (operands (at4 0) 0).eccSoft = [] ∧ eccHit (operands (at4 0) 0) (ldsBase 0) 16 = none ∧ eccHit (operands (at4 0) 0) (lisBase 0) 16 = none := by decide
theorem test_witness_ScalarStores : [0, 0x7FFF0, 0x100000, globalBase].all (fun a => passes (at4 a) 16 .store (storeNeeds 0 a 16)) = true ∧
    passes (at4 0) 16 (.storeCap 3 (TWord.plain 0x1234)) (storeNeeds 0 0 16) = true ∧ partWords (operands (at4 0) 0) (lisBase 0) 16 = [] ∧
    paired (operands (at4 0) 0) 0 = false ∧ passes (asPair (at4 globalBase)) 16 .store (storeNeeds 0 globalBase 16) = true ∧
    paired (operands (asPair (at4 globalBase)) 0) 0 = true ∧ regionOf 0 globalBase 16 = some (.global globalBase) ∧
    (Region.global globalBase).outside = true ∧ partWords State.reset (lisBase 0) 16 = [] := by decide
/-- The state with a changed capability in register 4 of core 0. -/
def with4 (v : TWord) : State := withReg 4 v State.reset
/-- What capability of register 4 an access of core 0 uses. -/
def used4 (s : State) : TWord := (authOf (operands s 0) 0 4 0).cap
theorem test_witness_IllegalFormsAndRefusedAccesses : clear atNative 0 14 { ext := true } = true ∧
    (operandCore atNative 0).seq.imprecise = none ∧ clear atLegacy 0 14 {} = true ∧ (atLegacy.core 0).legacy = true ∧
    (atNative.core 0).atBase = false ∧
    stepDue { State.reset with cfg := { State.reset.cfg with divact := true, divSince := 0 }, now := 5 } 0 = true ∧
    (used4 (with4 TWord.null)).tag = false ∧ clear (with4 TWord.null) 0 14 { ext := true } = true ∧
    (accessHeld (operandCore (with4 TWord.null) 0) 0 (loadNeeds 0 0 16)).isNone = true ∧
    capOtype (used4 (with4 { capAt 0 with val := setOtype (capAt 0).val 1 })).val ≠ 0 ∧
    hasPerm (used4 (with4 (capWithout 0 (BitVec.twoPow 14 permLD)))).val permLD = false ∧
    permFault true (authOf (operands (with4 (bounded 0 16)) 0) 0 4 16) 8 .load = none ∧
    inBounds (bounded 0 16).val 16 1 = false ∧ inBounds (bounded 0 16).val 15 2 = false := by decide
theorem test_witness_NopPrefixesAndAnnulment : clear State.reset 0 14 { banned := true } = true ∧ lastOfGroup (State.reset.core 0).seq = false ∧
    condHolds 0 (operandCore State.reset 0).x.status = false ∧ clear State.reset 0 14 plain3 = true ∧
    clear State.reset 0 14 { banned := true, rptOk := true, writes := [3] } = true := by decide
theorem test_witness_SystemRegisters : clear State.reset 0 14 { banned := true } = true ∧
    hasPerm (operandCore State.reset 0).x.pcc.val permSYSREG = true ∧ (State.reset.core 0).atBase = true ∧ sysBL 0x0B = true ∧
    (let s := withX (fun x => { x with pcc := capWithout 0x100000 (BitVec.twoPow 14 permSYSREG) }) State.reset
     clear s 0 14 {} = true ∧ hasPerm (operandCore s 0).x.pcc.val permSYSREG = false ∧ (operandCore s 0).seq.imprecise = none) := by decide

/-! ## Witnesses: exceptions, resets, pairs, decimal -/

/-- A fault of core 0, and an event. -/
def aFault : Cause := { code := 0x0B, xpc := 0x100004, xaddr := 0, xinfo := 0, fault := true, back := false }
def anEvent : Cause := { aFault with code := 0x20, fault := false }
/-- Core 0 at native level with FM 0, and a choice of a valid XFRAME and IVEC. -/
def entering (frame vec : Bool) : State :=
  withX (fun x => { x with xframe := if frame then x.xframe else TWord.null, ivec := if vec then x.ivec else TWord.null }) atNative

theorem test_witness_CausesAreDelivered :
    (State.reset.core 0).atBase = true ∧ (atLegacy.core 0).legacy = true ∧ aFault.fault = true ∧ anEvent.fault = false ∧
    { atLegacy.cfg with lgtrap := 1 }.lgtrap.getLsbD 0 = true ∧ (atNative.core 0).atBase = false ∧
    stFM (withX (fun x => { x with status := 0x008F0000 }) atNative |>.core 0).x.status = true ∧
    stFM (atNative.core 0).x.status = false ∧
    ([(true, true), (true, false), (false, true), (false, false)].map fun (f, v) =>
      (xframeValid ((entering f v).core 0).x.xframe, ivecValid ((entering f v).core 0).x.ivec)) =
      [(true, true), (true, false), (false, true), (false, false)] := by decide
/-- Core 0 with a cause that its string instruction raises at its next boundary. -/
def delayed : State := withSeq (fun q => { q with trap := some aFault, nextIssue := 30 }) State.reset
theorem test_witness_DelayedCausesAreDelivered : canIssue (arrived delayed 0) 0 = true ∧ ((arrived delayed 0).core 0).seq.str = none ∧
    ((arrived delayed 0).core 0).seq.trap = some aFault ∧ issueCycle delayed 0 = 30 ∧
    baseDue 0 30 (atBoundary 0 30 (arrived delayed 0)) = none ∧
    impreciseDue 0 30 true ((atBoundary 0 30 (arrived delayed 0)).modCore 0 (settleCore false 30)) = none := by decide
theorem test_witness_EntriesSaveAndVector : (entryCore 20 (atNative.core 0)).x.depth < 8 ∧
    (∀ m ∈ (entryCore 20 (atNative.core 0)).seq.mcDue, m.cycle < 20 ∨ 20 + 13 < m.cycle) ∧
    8 ≤ (entryCore 20 ((withX (fun x => { x with depth := 8 }) State.reset).core 0)).x.depth ∧
    (let m : McDue := { cycle := 25, info := 0, baddr := 0 }
     (entryCore 20 ((withSeq (fun q => { q with mcDue := [m] }) atNative).core 0)).seq.mcDue = [m]) := by decide
theorem test_witness_EntryFrames : Memory.wf State.reset.mem = true ∧ 0 % 16 = 0 ∧ ldsSize - 80 + 80 ≤ ldsSize ∧
    ([0, 3968].map fun a => xframeValid { bounded 0 4096 with val := setAddr (bounded 0 4096).val (BitVec.ofNat 52 a) }) = [true, true] ∧
    ([0, 3968].map fun a => (capAddr (frameAdvance { bounded 0 4096 with
      val := setAddr (bounded 0 4096).val (BitVec.ofNat 52 a) }).val).toNat) = [128, 0] := by decide
/-- Core 0 at base level depth 1 that has come from native level, and at native level that has come from legacy level. -/
def fromNative : State := withX (fun x => { x with bpc := capAt 0x100400, bstat := 0x000F0000 }) State.reset
def fromLegacy : State := withX (fun x => { x with xpc := capAt 0x100800, xstat := 0x080F0000 }) atNative
theorem test_witness_ReturnRestores : [fromNative, fromLegacy].all (fun s => clear s 0 14 { banned := true } &&
      hasPerm (operandCore s 0).x.pcc.val permSYSREG && (xretRefusal (operandCore s 0)).isNone) = true ∧
    (retire 3 (operandCore fromNative 0)).x.depth = 1 ∧ (retire 3 (operandCore fromLegacy 0)).x.depth = 0 ∧
    xframeValid (retire 3 (operandCore fromLegacy 0)).x.xframe = true := by decide
/-- Core 0 at native level with IPL 0, event 5 pending and routed to it with priority 1. -/
def withEvent : State :=
  let s := (withX (fun x => { x with status := 0 }) atNative).modCore 0 fun k => { k with evP := 0x20 }
  { s with ev := { s.ev with route := s.ev.route.set 5 0x0010000000000001 } }
/-- A machine check due at the boundary of core 0. -/
def withCheck : State := withSeq (fun q => { q with mcDue := [{ cycle := 0, info := 0, baddr := 0 }] }) State.reset
theorem test_witness_CallsAndEntries : clear atNative 0 14 { banned := true } = true ∧ canIssue withEvent 0 = true ∧
    nativeEventDue (operands withEvent 0) 0 0 = some 5 ∧ baseDue 0 0 (boundary withEvent 0) = none ∧
    accepts ((boundary withEvent 0).core 0).seq = true ∧ deLegal 0xE0000000 = true ∧ deLegal 0xE03FFFFF = false ∧
    (baseDue 0 (issueCycle withCheck 0) (boundary withCheck 0)).isSome = true := by decide
/-- A hold and a release of core 1 on their way. -/
def crossing (hold : Bool) : State := { State.reset with pw := { State.reset.pw with crholdDue := [(10, 1, hold)] } }
theorem test_witness_CoreHoldsAndReleases : present State.reset 1 = true ∧ State.reset.pw.crhold.getLsbD 1 = true ∧
    ((crossing true).pw.crholdDue.find? fun x => x.2.1 = 1) = some (10, 1, true) ∧ paired (crossing true) 1 = false ∧
    ((crossing false).pw.crholdDue.find? fun x => x.2.1 = 1) = some (10, 1, false) ∧ State.reset.cfg.lock = false := by decide
/-- Cores 0 and 1 run, core 1 waits in its WPJOIN until cycle 90, and the configuration is locked. -/
def joining : State :=
  let s := (State.reset.modSeq 1 fun q => { q with inReset := false, joinUntil := some 90 }).modX 1 fun _ => ExcRegs.reset 1
  withNum 4 100 { s with cfg := { s.cfg with lock := true } }
/-- Cores 0 and 1 as a pair, with equal acts to leave it. -/
def leaving : State :=
  let a : HeldAct := { act := .leave, cycle := 10, pc := 0, gd := 0, seq := 0 }
  let p : Pair := { formed := true, evenActs := [a], oddActs := [{ a with cycle := 12 }], loadQ := [], sysQ := [], eventQ := [] }
  { joining with pairs := joining.pairs.set 0 p }
theorem test_witness_WitnessPairs : clear joining 0 14 { banned := true } = true ∧ joinRefused (operands joining 0) 0 = false ∧
    ((operandCore joining 0).reg 4).val.toNat % 2 ^ 32 ≠ 0 ∧ quiet (operands joining 0) 0 0 = true ∧
    quiet (operands joining 0) (partner 0) 0 = true ∧ runs (operands joining 0) (partner 0) = true ∧
    ((operands joining 0).core (partner 0)).seq.joinUntil = some 90 ∧
    clear (joining.modSeq 1 fun q => { q with nextIssue := 90 }) 1 14 { banned := true } = true ∧
    paired (operands joining 0) 0 = false ∧ paired (operands leaving 0) 0 = true ∧ clear leaving 0 14 { banned := true } = true ∧
    ((leaving.pair 0).evenActs.map fun a => (a.act, a.cycle)) = [(.leave, 10)] ∧
    ((leaving.pair 0).oddActs.map fun a => (a.act, a.cycle)) = [(.leave, 12)] := by decide
/-- A decimal instruction of core 0 that writes register 3, or the pair of register 6. -/
def dec3 : Demand := { banned := true, rptOk := true, writes := [3] }
theorem test_witness_DecimalSumsAndProducts : clear (nums 0x123C 0x45D) 0 14 dec3 = true ∧
    (decRead 0x123C).isSome = true ∧ (decRead 0x45D).isSome = true ∧ decRead 0x1231 = none ∧
    (decRead 0x9999999999999999999999999999999C).isSome = true := by decide
theorem test_witness_DecimalQuotients : clear (nums 0x123C 0x5C) 0 14 { dec3 with writes := [6, pairReg 6] } = true ∧
    (6 : Reg).val % 2 = 0 ∧ (decRead 0x123C).map (·.mag) = some 123 ∧ (decRead 0x5C).map (·.mag) = some 5 ∧
    (decRead 0x0C).map (·.mag) = some 0 ∧ (∀ m ∈ [0, 1, 2, 3, 4, 5], roundMag m false 5 10 = [1, 0, 0, 1, 0, 1].getD m 0) := by decide
theorem test_witness_DecimalComparesAndConversions : clear (nums 0x123C 0x5C) 0 14 { banned := true, rptOk := true } = true ∧
    clear (nums 0x123C 0x5C) 0 14 dec3 = true ∧ (decRead 0x1234567890123C).isSome = true ∧ decRead 0x123 = none ∧
    (0 ≤ (31 : BitVec 6).toInt) ∧ (-31 ≤ (33 : BitVec 6).toInt ∧ (33 : BitVec 6).toInt < 0) ∧ (33 : BitVec 6) ≠ 32 := by decide
theorem test_witness_DecimalMemoryForms : [0, 1, 2].all (fun a => clear (at4 a) 0 14 { banned := true } &&
      (accessFault (operands (at4 a) 0) 0 (authOf (operands (at4 a) 0) 0 4 0) 16 .load).isNone &&
      (accessFault (operands (at4 a) 0) 0 (authOf (operands (at4 a) 0) 0 4 0) 16 .store).isNone) = true ∧
    (operandCore (at4 0) 0).seq.hold = none ∧ vecMemQueued (operandCore (at4 0) 0).ms 0 = false ∧
    (operandCore (at4 0) 0).ms.storeBuf = [] ∧ regionOf 0 0x7FFF0 16 = some (.lds (ldsBase 0 + 0x7FFF0)) ∧
    outstanding (operandCore (at4 0) 0).ms 0 + 2 ≤ 8 ∧ regionOf 0 globalBase 31 = some (.global globalBase) := by decide

/-! ## Witnesses: strings, vectors, floating point, capabilities -/

/-- Registers 2, 4 and 6 of core 0 with capabilities over 1,024 bytes of LDS each, n in register 5 and b in register 7. -/
def strings (n b : Nat) : State :=
  withReg 2 (bounded 0x1000 1024) (withReg 4 (bounded 0x2000 1024) (withReg 6 (bounded 0x3000 1024)
    (withNum 5 n (withNum 7 b State.reset))))
/-- The authority of a register of core 0, and the work of a string instruction over registers 2, 4 and 5. -/
def auth (s : State) (r : Reg) : Auth := authAt (operands s 0) 0 r 0
def job (s : State) (op : StrOp) : StrJob := strJob (operandCore s 0) op 2 4 5 0
theorem test_witness_StringInstructionsComplete : clear (strings 16 0) 0 14 { banned := true } = true ∧
    vecMemQueued (operandCore (strings 16 0) 0).ms 0 = false ∧ inGlobal (auth (strings 16 0) 2).ea 1 = false ∧
    State.reset.eccBad = [] ∧ State.reset.eccSoft = [] ∧
    ([0, 1, 16].all fun n =>
      let s := strings n 0
      let o := operands s 0
      let d := auth s 2
      let a := auth s 4
      (moveFault o 0 2 4 5 false).isNone && (moveFault o 0 2 4 5 true).isNone &&
      (firstTrap [strFault o 0 d n true false false, strFault o 0 a n true false false]).isNone &&
      (firstTrap [strFault o 0 d n true true false, strFault o 0 a 256 true false false]).isNone &&
      ([1, 2].all fun m => (strFault o 0 d (if m = 1 then n else 2 * n) false true false).isNone)) = true ∧
    ([(64, 0), (65, 0), (6, 64), (70, 6)].all fun (n, ahead) =>
      decide ((({ job (strings n 0) .mvb with ahead := ahead } : StrJob).run (strings n 0) 0).n = n)) = true ∧
    ((job (strings 70 0) .clcb).run (withReg 4 (bounded 0x1000 1024) (strings 70 0)) 0).final 64 = false ∧
    (let s := strPut (strAt 0 0x2000) [1] (strings 70 0)
     ((job s .clcb).run s 0).final 64 = true ∧ ((job s .clcb).run s 0).n = 70) := by decide
theorem test_witness_StringInstructionsComplete_fldw :
    (fldwFault (operands (strings 0 0) 0) 0 (auth (strings 0 0) 2) (auth (strings 0 0) 6) (auth (strings 0 0) 4) 1024).isNone = true ∧
    (capBounds (auth (strings 0 0) 2).cap.val).isSome = true ∧ ((strings 0 0).core 0).legacy = false ∧ pairReg 2 = 3 := by decide
/-- Core 0 at an interruption point of a string instruction. -/
def atStrPoint (k : StrCont) : State := (strings 6 0).modSeq 0 fun q => { q with str := some k }
theorem test_witness_StringsAtTheirPoints :
    ([.work { job (strings 6 0) .mvb with ahead := 0 }, .spent [5, 9], .block].all fun k =>
      let s := atStrPoint k
      canIssue (arrived s 0) 0 && (((arrived s 0).core 0).seq.str == some k) &&
      (pointTaken 0 0 (leavePoint 0 0 ((atBoundary 0 0 (arrived s 0)).modCore 0 (settleCore false 0)))).isNone) = true ∧
    (let s := (atStrPoint .block).modCore 0 fun k => { k with evP := putBit 0 336 true }
     (pointTaken 0 0 (leavePoint 0 0 ((atBoundary 0 0 (arrived s 0)).modCore 0 (settleCore false 0)))).isSome = true) := by decide
/-- MVB over 70 bytes stops at its point after 64 of them, with 6 left in its count (R166, R171). -/
theorem test_mvb_stops_at_its_point : (let u := settle 30 (ran (.mvb 0 14 2 4 5) (strings 70 0))
    ((u.core 0).seq.str.isSome, (u.core 0).seq.nextIssue, countOf ((retire 30 (u.core 0)).reg 5))) = (true, 10, 6) := by decide +kernel
/-- A message of core 0 in LDS: a bitmap of 8 bytes with the given bits, then bytes 1, 2, ..., and descriptors at 0x2000. -/
def message (bits descs : Nat) : State :=
  strPut (strAt 0 0x2000) (leBytes 512 descs) (strPut (strAt 0 0x1000) (leBytes 8 bits ++ [1, 2, 3, 4]) (strings 0 0))
theorem test_witness_FieldsOfAMessage : (message 0 0).eccBad = [] ∧ strAt 0 (ptrAt ((strings 0 0).core 0 |>.reg 2)) = strAt 0 0x1000 ∧
    (readBitmaps (message 0 0) (strAt 0 0x1000) 7 0).toOption = none ∧
    (readBitmaps (message 0 0) (strAt 0 0x1000) 12 0).toOption = some 0 ∧ fldwTodo 0 2 = [] ∧
    ((readBitmaps (message 0x40 0) (strAt 0 0x1000) 12 0).toOption.map fun b => fldwTodo b 2) = some [2] ∧
    ((readBitmaps (message 0x60 0) (strAt 0 0x1000) 12 0).toOption.map fun b => fldwTodo b 3) = some [3] ∧
    ((readBitmaps (message 0x60 0) (strAt 0 0x1000) 12 0).toOption.map fun b => fldwTodo b 2) = some [2, 3] ∧
    (readField (message 0x60 0) (strAt 0 0x1000) 12 0 8).toOption = none ∧
    (readField (message 0x60 0) (strAt 0 0x1000) 12 0x40000002 8).toOption = some (2, 8) := by decide +kernel
theorem test_witness_CopiesAndSequences : Memory.wf (strings 16 0).mem = true ∧ strAt 0 (ptrAt (((strings 16 0).core 0).reg 2)) = 0x1000 + ldsBase 0 ∧
    strAt 0 (ptrAt (((strings 16 0).core 0).reg 4)) = 0x2000 + ldsBase 0 ∧ copyDist 0x1000 0x2000 16 = 0 ∧ 0x1000 + ldsBase 0 + 16 ≤ attBase ∧
    u8Next [0x24] = .point 0x24 1 ∧ u8Next [0xF4, 0x8F, 0xBF, 0xBF] = .point 0x10FFFF 4 := by decide
/-- An MVBL of core 0 with its blocks on their way from the global scratchpad. -/
def longMove (n : Nat) : Mvbl :=
  { gd := 2, ga := 4, gb := 5, start := 0, dv := bounded 0x1000 1024, sv := capAt globalBase, legacy := false, base := true, dst := 0x1000,
    src := globalBase, len := n, dkey := 0, skey := 0, dreg := 2, sreg := 4, done := 0, wrote := 0, refused := none, got := [] }
/-- Key byte 0x10 of the first two frames of the global scratchpad. -/
def keyed (s : State) : State := { s with fkeys := [(0, 0x10), (1, 0x10)] }
theorem test_witness_LongMovesThroughTheFabric :
    (let s := withReg 4 (capAt globalBase) (strings 16 0)
     clear s 0 14 { banned := true } = true ∧ (moveFault (operands s 0) 0 2 4 5 true).isNone = true ∧ countOf ((operandCore s 0).reg 5) = 16 ∧
     inGlobal (auth s 4).ea 1 = true) ∧ State.reset.keySoft = [] ∧ blocksOf globalBase 100 = 2 ∧
    ([(State.reset, true), (keyed State.reset, false)].all fun (s, good) => [0, 1].all fun i =>
      let b := blockSpan globalBase 100 i
      (blockCheck 0 (if good then 0 else 1) false (globalBase + b.1) (b.2 - b.1) 4 s).isNone == good) = true ∧
    ([(State.reset, true), (keyed State.reset, false)].all fun (s, good) => [(16, 16), (100, 64)].all fun (n, hi) =>
      decide (blockBytes globalBase n 1 = hi) && ((blockCheck 0 (if good then 0 else 1) true globalBase hi 2 s).isNone == good)) = true := by decide
/-- A vector load or store of core 0 through register 4 passes its checks. -/
def vecPasses (s : State) (store : Bool) : Bool :=
  clear s 0 14 {} && decide (vecOccupied (operandCore s 0).ms 0 < 4) && (presentEntries (operandCore s 0).ms 0).isEmpty &&
  (vecFault (operands s 0) 0 (auth s 4) (vleOf (operands s 0) (operandCore s 0) / 8) store).isNone
theorem test_witness_VectorInstructionsEnterTheQueue : clear State.reset 0 14 {} = true ∧
    vecOccupied (operandCore State.reset 0).ms 0 < 4 ∧ (1 : KReg) ≠ 0 ∧ (1 : KReg) ≠ 2 := by decide
theorem test_witness_VectorMemoryInstructionsEnterTheQueue : ([0, 0x7FE00, globalBase].all fun a =>
    vecPasses (at4 a) false && vecPasses (at4 a) true) = true := by decide
/-- An entry of the vector queue of core 0, and one that is done. -/
def entry (i : Instr) : VEntry :=
  { instr := i, disp := 0, first := 4, last := 11, lat := 2, vle := 4096, dctl := 0, fpctl := 0, op := TWord.null, addr := 0, key := 0,
    isMem := false, global := false, seq := 3, pc := 0 }
def doneEntry : VDone := { last := 11, lat := 2, isMem := false, gWrite := some (5, 7), fpOr := 1, seq := 3 }
/-- Core 0 with an entry at the front of its vector queue and one that is done. -/
def queued (e : VEntry) : State := State.reset.modMs 0 fun m => { m with vq := [e], vdone := [doneEntry] }
theorem test_witness_VectorBeatsRun : ([entry (.vadd 0 14 .word 1 2 3 0), entry (.vld 0 14 .word 1 4 0), entry (.vst 0 14 .word 1 4 0)].map fun e =>
      e.mem.map (·.store)) = [none, some false, some true] ∧
    ((queued (entry (.vadd 0 14 .word 1 2 3 0))).core 0).ms.vloads = [] ∧ State.reset.eccBad = [] ∧ State.reset.eccSoft = [] ∧
    (([false, true].map fun g => { entry (.vst 0 14 .word 1 4 0) with isMem := true, global := g }).map fun e => e.global) = [false, true] := by
  decide
theorem test_witness_VectorEntriesComplete : ((queued (entry (.vadd 0 14 .word 1 2 3 0))).core 0).ms.vdone = [doneEntry] ∧
    doneEntry.gWrite = some (5, 7) ∧ doneEntry.fpOr ≠ 0 ∧
    ({ doneEntry with gWrite := none, fpOr := 0 } : VDone).gWrite = none := by decide
theorem test_witness_VectorLanes : (entry (.vadd 0 14 .word 1 2 3 0)).vle ≤ 4096 ∧ 128 * 31 + 128 ≤ 4096 ∧ (1 : KReg) ≠ 0 ∧
    (entry (.vcmpeq 0 14 .byte 1 2 3 0)).instr = .vcmpeq 0 14 .byte 1 2 3 0 := by decide
theorem test_witness_VectorWideLanes : (entry (.vdadd 0 14 1 2 3 1)).vle ≤ 4096 ∧ (2 : KReg) ≠ 1 ∧ 32 * 127 + 32 ≤ 4096 ∧ 8 * 511 + 8 ≤ 4096 ∧
    (decLane (BitVec.ofNat 4096 0) 0).isNone = true ∧ (decLane (BitVec.ofNat 4096 0x123C) 0).isSome = true := by decide
theorem test_witness_MaskOperations : (entry (.kmovk 0 14 1 5 3)).instr = .kmovk 0 14 1 5 3 ∧
    (entry (.kmovg 0 14 5 1 0)).instr = .kmovg 0 14 5 1 0 ∧ (entry (.kand 0 14 0 1 2)).instr = .kand 0 14 0 1 2 := by decide
theorem test_witness_GatherAndScatter : ([at4 0x100, with4 (bounded 0x100 8)].all fun s =>
      clear s 0 14 { banned := true } && decide (vecOccupied (operandCore s 0).ms 0 = 0) && (presentEntries (operandCore s 0).ms 0).isEmpty &&
      (auth s 4).cap.tag && !isSealed (auth s 4).cap && hasPerm (auth s 4).cap.val permLD && hasPerm (auth s 4).cap.val permST &&
      (operandCore s 0).seq.imprecise.isNone) = true ∧
    ([0, 1, 2].map fun i => inBounds (auth (with4 (bounded 0x100 8)) 4).cap.val (0x100 + 4 * i) 4) = [true, true, false] ∧
    within 0x100 4 0 0x80000 = true ∧ within 0x7FFFE 4 0 0x80000 = false ∧ State.reset.eccBad = [] ∧ State.reset.eccSoft = [] := by decide
theorem test_witness_FloatingPointResults : clear (nums 0x3F800000 0x40000000) 0 14 { banned := true } = true ∧
    clear (nums 0x3F800000 0x40000000) 0 14 {} = true ∧ fpTraps (operandCore (nums 0 0) 0).regs.fpctl = 0 ∧ stepDue (nums 0 0) 0 = false ∧
    fpSnans (.nan true) (.num false 1 0) ≠ 0 ∧
    (let s := (nums 0x7FA00000 0).modRegs 0 fun r => { r with fpctl := 0xFFFFFFFF }
     fpTraps (operandCore s 0).regs.fpctl &&& fpSnans (fpOp (operandCore s 0) 4) (fpOp (operandCore s 0) 5) ≠ 0 ∧
     (operandCore s 0).seq.imprecise = none) := by decide
/-- A pair in registers 6 and 7 that FDSTEPD has begun. -/
def stepped6 : State := ran (.fdstepd 0 14 6 4 5) (nums 0x3F800000 0x40000000)
theorem test_witness_FloatingPointSteps : clear (nums 0 0) 0 14 {} = true ∧ fdOrigin (operandCore (nums 0 0) 0) 6 = none ∧
    clear stepped6 0 14 {} = true ∧ fdOrigin (operandCore stepped6 0) 6 = some false ∧ (6 : Reg).val % 2 = 0 ∧ (6 : Reg) ≠ 0 ∧
    fpTraps (operandCore (nums 0 0) 0).regs.fpctl = 0 ∧ (operandCore (nums 0 0) 0).seq.imprecise = none := by decide
theorem test_witness_RepresentableNumbersAndNaNs : fpFTZ 0 = false ∧
    fpRead false 1 = .num false 1 (-149) ∧ (fpRead false (fpAdd 0 (.nan false) (.nan false)).v).isNan = true := by decide
theorem test_witness_CapabilityResults : clear (with4 (capAt 0)) 0 14 {} = true ∧ ((with4 (capAt 0)).core 0).legacy = false ∧
    (capBounds (capAt 0).val).isSome = true ∧ capBounds (putField 0 94 (32#6)) = none ∧
    (capAt 0).tag = true ∧ capOtype (capAt 0).val = 0 ∧ capKey (capAt 0).val = 0 ∧ isSealed (capAt 0) = false ∧
    (setBounds (capAt 0) 1).isSome = true ∧ (setBounds (capAt 0) (2 ^ 52)).isSome = true ∧
    sealChecks (capAt 0) (capAt 16) 4 5 = none ∧
    unsealChecks { capAt 0 with val := setOtype (capAt 0).val 16 } (capAt 16) 4 5 = none := by decide
theorem test_witness_CapabilitiesOnlyShrink : (setBounds (capAt 0x1001) 5).isSome = true ∧
    ((setBounds (capAt 0x1001) 5).map fun r => (capBounds r.1.val).isSome) = some true ∧ (moveAddr (capAt 0) 5).tag = true ∧
    hasPerm (setPerms (capAt 0).val (capPerms (capAt 0).val &&& 1)) 0 = true := by decide
theorem test_witness_SealedInvocation : clear State.reset 0 14 { banned := true } = true ∧ (State.reset.core 0).legacy = false ∧
    invokeChecks { capAt 0x100400 with val := setOtype (capAt 0x100400).val 5 }
      { capWithout 0 (BitVec.twoPow 14 permEX) with val := setOtype (capWithout 0 (BitVec.twoPow 14 permEX)).val 5 } 4 5 = none ∧
    targetFault (unsealed { capAt 0x100400 with val := setOtype (capAt 0x100400).val 5 }).val 0x100400 4 = none := by decide
/-- The data port of core 0 changed. -/
def port (f : DataPort → DataPort) : State := State.reset.modDp 0 f
theorem test_witness_FrameKeys : ([globalBase, attBase].all fun a =>
    let s := at4 a
    clear s 0 14 {} && (keyChecks ((operandCore s 0).reg 4) 4 false).isNone && (keyChecks ((operandCore s 0).reg 4) 4 true).isNone &&
    !(busyAt (operandCore s 0).dp 0)) = true ∧ busyAt (operandCore (port fun d => { d with busy := true }) 0).dp 0 = true ∧
    inGlobal globalBase 1 = true ∧ inGlobal attBase 1 = false ∧ paired State.reset 0 = false ∧ State.reset.keyBad = [] ∧ State.reset.keySoft = [] ∧
    Memory.wf State.reset.fkeys = true ∧ ((4 : Nat) < 5 ∧ (5 : Nat) ≤ 5) := by decide
theorem test_witness_DataPortInstructions :
    let s := withNum 4 0x80000000 (port fun d => { d with addr := capAt attBase })
    clear s 0 14 { banned := true } = true ∧ clear s 0 14 {} = true ∧ hasPerm (operandCore s 0).x.pcc.val permSYSREG = true ∧
    (((operandCore s 0).reg 4).val.getLsbD 31) = true ∧ busyAt (operandCore s 0).dp 0 = false ∧
    goFault ((operands s 0).modDp 0 fun _ => dpFields (operandCore s 0).dp 0x80000000) 0 = none ∧
    busyAt (operandCore (port fun d => { d with busy := true, fall := 900 }) 0).dp 0 = true ∧
    (((withNum 4 0 s).core 0).reg 4).val.getLsbD 31 = false ∧
    ([((1 : BitVec 2), (16 : BitVec 13), true), (0, 0, false)].map fun q => let d := ((port fun d => { d with err := q.1, cnt := q.2.1, keyr := q.2.2 }).core 0).dp
      (decide (2 ^ d.inc.toNat ≤ d.cnt.toNat), d.keyr, d.err)) = [(true, true, 1), (false, false, 0)] := by decide
/-- A burst of core 0 on its way, by kind and key. -/
def bursting (key : BitVec 4) (k : DpKind) : State :=
  port fun d => { d with busy := true, req := some { addr := BitVec.ofNat 52 attBase, key := key, go := 3, kind := k, twin := false } }
theorem test_witness_DataPortResponses : ((bursting 0 (.read 64)).core 0).dp.req.isSome = true ∧
    attachedCheck (bursting 0 (.read 64)) 0 false attBase 64 = none ∧ attachedCheck (bursting 0 (.write [1])) 0 true attBase 1 = none ∧
    (let s := setKeyByte (bursting 1 (.read 64)) attBase 0x10
     keyTableBad s attBase 64 = none ∧ (keyRefusal s 1 false attBase 64).isSome = true ∧ (keyRefusal s 1 true attBase 1).isSome = true) ∧
    Memory.wf (bursting 0 (.read 64)).mem = true ∧ attBase ≤ attBase ∧ attBase + 64 ≤ attUsable ∧
    (let s := (bursting 0 (.read 64)).modDp 0 fun d => { d with reply := some { err := 0, bad := 0, data := some [1], keyr := false } }
     ((settle (max s.now 6) s).core 0).dp.reply.isSome = true) := by decide

/-! ## Witnesses: events, engines, keys, the journal -/

/-- Core 0 with an event number in register 5. -/
def atEvent (n : Nat) : State := withNum 5 n State.reset
/-- Event 335 with priority 1, routed to core 0, and other bits of its EVROUTE. -/
def routed (more : BitVec 64) (s : State) : State := { s with ev := { s.ev with route := s.ev.route.set 335 (0x10000000000001 ||| more) } }
theorem test_witness_EventInstructions :
    ([0, 47, 448, 495, 48, 447].all fun n => clear (atEvent n) 0 14 {} && ((evNumber (operandCore (atEvent n) 0) 5).val == n)) = true ∧
    hasPerm (operandCore (atEvent 0) 0).x.pcc.val permEVENT = true ∧ (operandCore (atEvent 48) 0).seq.imprecise = none ∧
    (let s := withX (fun x => { x with pcc := capWithout 0x100000 (BitVec.twoPow 14 permEVENT) }) (atEvent 0)
     clear s 0 14 {} = true ∧ hasPerm (operandCore s 0).x.pcc.val permEVENT = false ∧ (operandCore s 0).seq.imprecise = none) := by decide
theorem test_witness_RaisesSetPendingBits : isBaseEvent 335 = false ∧ State.reset.ev.acts = [] ∧ evPrio State.reset 335 = 0 ∧
    State.reset.ev.lastPulse[335] = 0 ∧ (raise 335 7 State.reset).ev.lastPulse[335] = 9 ∧ evLevel (raise 335 7 State.reset) 335 = false ∧
    (let s := routed 0 State.reset
     evPrio s 335 ≠ 0 ∧ evBcast s 335 = false ∧ evTargets s 335 = [0] ∧ passedOver s 0 = false) ∧
    (let s := (routed 0 State.reset).modSeq 0 fun q => { q with inReset := true }
     evPrio s 335 ≠ 0 ∧ evBcast s 335 = false ∧ (evTargets s 335).all (fun d => passedOver s d) = true) := by decide
theorem test_witness_RaisesSetPendingBits_bcast :
    (let s := { State.reset with ev := { State.reset.ev with route := State.reset.ev.route.set 335 0xFFFFFFFFFFFFFFFF } }
     evPrio s 335 ≠ 0 ∧ evBcast s 335 = true) := by decide
theorem test_witness_TimersAndHeldRaises : ([true, false].all fun p =>
      let s := { State.reset with ev := { State.reset.ev with timers := State.reset.ev.timers.set 47 { per := p, en := true, cmp := 9, period := 0 } } }
      s.ev.timers[47].en && (s.ev.timers[47].per == p)) = true ∧ State.reset.ev.timers[47].en = false ∧
    (let s := { routed 0 State.reset with ev := { (routed 0 State.reset).ev with held := 2 ^ 335 } }
     s.ev.held.getLsbD 335 = true ∧ evPrio s 335 ≠ 0 ∧ ((evTargets s 335).any fun c => !passedOver s c) = true) := by decide
/-- A request of core 0. -/
def req (f : Nat) : EngReq := { ga := capAt globalBase, gb := capAt globalBase, source := .core 0 true, entry := f, after := none, marked := true }
/-- A descriptor with an operation. -/
def desc (op : BitVec 16) : Desc :=
  { op := op, flags := 0, dbcore := 0, inlen := 0, inoff := 0, outoff := 0x1000, key1 := TWord.null, key2 := TWord.null, param := [], reserved := 0 }
/-- A stage of the request with an operation and a status of its fetch. -/
def stage (op pre : BitVec 16) : EngStage :=
  { req := req 2, known := true, start := 3, fetchEnd := 4, cmpStart := 5, cmpEnd := 6, wbEnd := 7, refused := false, desc := desc op, unread := false, input := [1], pre := pre,
    outLen := 32, result := EngResult.of stZeroised }
/-- Engine 32 changed. -/
def engined (f : Engine → Engine) : State := modEngine 32 f State.reset
/-- Core 0 with an engine number in register 6 and the capabilities of a request. -/
def submits (e : Nat) (s : State) : State := withNum 6 e (withReg 4 (capAt globalBase) (withReg 5 (capAt globalBase) s))
/-- What came of a background request of engine 32. -/
def came (job off : Nat) (bytes : List Byte) : BgDone := { who := 96, job := job, off := off, bytes := bytes, tags := [], bad := none, refused := none }
theorem test_witness_EngineRequests_submission :
    clear (submits 0 State.reset) 0 14 {} = true ∧ ((submits 0 State.reset).core 0).legacy = false ∧ paired (operands (submits 0 State.reset) 0) 0 = false ∧
    esubChecks (operandCore (submits 0 State.reset) 0) 4 5 = none ∧ enginePresent State.reset 48 = true ∧
    occupied (engined fun g => { g with queue := List.replicate 5 (req 9) }).engines[32] 0 = 5 ∧
    occupied State.reset.engines[32] 0 = 0 ∧ (engined fun g => { g with accepted := [req 9] }).engines[32].accepted = [req 9] ∧
    (settlePort (engined fun g => { g with accepted := [req 9] })).engines[32].accepted = [req 9] ∧ (req 2).source.isCore = true := by decide +kernel
theorem test_witness_EngineRequests_stages :
    (let s := settlePort (engined fun g => { g with queue := [req 2] })
     fetchStart s.engines[32] = some 2 ∧ fetchNext s.engines[32] 2 = some (req 2)) ∧
    (let j : EngReq := { req 2 with source := .journal 3 [1] }
     let s := settlePort (engined fun g => { g with jqueue := [j] })
     fetchStart s.engines[32] = some 2 ∧ fetchNext s.engines[32] 2 = some j ∧ j.source.isCore = false) ∧
    (let st := stageUnknown (req 2) 3
     let s := { engined (fun g => { g with fetch := some st }) with bgDone := [came 12 0 (leBytes 64 0x207)] }
     s.engines[32].fetch = some st ∧ st.known = false ∧ doneOf s (64 + 32) (4 * st.start) = [came 12 0 (leBytes 64 0x207)]) ∧
    (let st := { stage 0x207 stOk with unread := true, desc := { desc 0x207 with inlen := 1 } }
     let s := { engined (fun g => { g with fetch := some st }) with bgDone := [came 13 0 [7]] }
     s.engines[32].fetch = some st ∧ st.known = true ∧
     decide (blocksOf (dataAddr st.req.gb st.desc.inoff) 1 ≤ (doneOf s (64 + 32) (4 * st.start + 1)).length) = true) ∧
    (wbNext (settle 14 (engined fun g => { g with run := [stage 0x207 stOk] })).engines[32]).isSome = true ∧
    (wbNext (engined fun g => { g with run := [stage 0x207 stOk] }).engines[32]).isSome = true ∧
    ([stage 0x207 stOk].find? fun y => y.start = 3) = some (stage 0x207 stOk) ∧ firstEnd [stage 0x207 stOk] = some (stage 0x207 stOk) := by
  decide +kernel
theorem test_witness_EngineOperations :
    ([0x0101, 0x020C, 0x0306, 0x0180].all fun op =>
      decide ((settleFetch 32 (engined fun g => { g with fetch := some (stage op stOk) })).engines[32].fetch = some (stage op stOk))) = true ∧
    (stage 0x101 stOk).refused = false ∧ (stage 0x101 stOk).unread = false ∧ (stage 0x101 stOk).known = true ∧ stOk = 0 ∧ stOk ≠ stBadOp ∧
    (stage 0x101 stKeyInvalid).pre ≠ stBadOp ∧ stKeyInvalid ≠ stOk ∧
    State.reset.lean = true ∧ isHandle { val := setOtype 0 0x3FF, tag := true } = true ∧ State.reset.ks.badSlots = [] ∧
    keyNamed State.reset.ks (desc 0x0201).key1 = none ∧ ({ State.reset with lean := false } : State).lean = false ∧
    ({ State.reset.ks with zpend := true, badSlots := [0] } : KeyStore).badSlots = [(capAddr (setOtype 0 0x3FF)).toNat % 65536] := by decide +kernel
/-- A key in slots 3 and 4. -/
def key3 : KeyEntry := { slot := 3, ktype := 7, nslot := 2, usage := 3, label := padTo 8 [1], material := [1, 2] }
/-- The key store with that key. -/
def stored : KeyStore := { State.reset.ks with keys := [key3] }
theorem test_witness_KeysAndRandomness : 0 < keySlots 19 ∧ slotsFree stored 5 (keySlots 19) = true ∧ (∀ k ∈ stored.keys, 0 < k.nslot) ∧
    slotGen stored 5 < 2 ^ 20 ∧ keyNamed stored { val := handleOf stored 3, tag := true } = some key3 ∧
    ({ stored with sweep := some (4, 0) } : KeyStore).sweep = some (4, 0) ∧ 4 + 4096 ≤ 4100 ∧
    State.reset.pw.minh = false ∧ ({ State.reset with pw := { State.reset.pw with minh := true } } : State).pw.minh = true ∧
    ({ State.reset with ks := { stored with zpend := true } } : State).ks.zpend = true ∧ State.reset.ks.zpend = false ∧ State.reset.drbg.state = 0 ∧
    (rctFails (List.replicate 41 true) || aptFails (List.replicate 41 true)) = true ∧ (rctFails [true, false] || aptFails [true, false]) = false ∧
    (engined fun g => { g with wb := [stage 0x20D stOk] }).engines[32].wb ≠ [] := by decide +kernel
/-- An entry of the journal. -/
def item (k : JKind) : JItem :=
  { kind := k, tai := 0, cycle := 0, core := 0, pair := 0xFF, lean := true, unsync := true, cnum := 1, addr := globalBase, len := 1, key := 0, after := none,
    payload := [7], ferr := 1, defer := 0, due := 4, wait := 0, mark := false, forced := false }
/-- The journal after reset changed. -/
def journal (f : Journal → Journal) : State := { State.reset with jn := f State.reset.jn }
/-- The same running over a ring of 1 MB. -/
def running (f : Journal → Journal) : State :=
  journal fun j => f { j with en := true, run := true, chainOn := true, rbase := BitVec.ofNat 52 attBase, rsize := 0x100000, lastCk := 5, sinceCk := 1 }
/-- A hash of an entry. -/
def hashing (d r : Bool) : JHash :=
  { item := item (.record 0x10), seqNo := 0, prev := List.replicate 32 0, body := [1], retried := r, disagree := d, stop := 50 }
/-- An entry that waits for its release. -/
def out (u : Bool) : JOut := { at_ := 0, size := 128, ready := 9, seqNo := 3, unsigned := u }
/-- Core 0 with a payload and its LEN and TYPE. -/
def commits (n : Nat) (s : State) : State := withReg 4 (capAt globalBase) (withNum 5 n s)
theorem test_witness_JournalRecords :
    ([0x100000, 0x100FC0, 0xF0000].all fun n => clear (commits n (running id)) 0 14 {} && !paired (operands (commits n (running id)) 0) 0 &&
      (commitChecks (operands (commits n (running id)) 0) (operandCore (commits n (running id)) 0) 4 5).isNone) = true ∧
    ([0x100000, 0x100FC0, 0xF0000].map fun n => commitStatus (running id).jn n) = [0, 0, 4] ∧ commitStatus State.reset.jn 0x100000 = 2 ∧
    (running fun j => { j with fault := true }).jn.fault = true ∧
    (let s := running fun j => { j with accepted := [item (.record 16)], queue := [item (.record 16)] }
     (settlePort s).jn.accepted ≠ [] ∧ (settlePort s).jn.queue ≠ [] ∧ (settlePort s).jn.fetch = none) ∧ (item (.record 16)).ferr ≠ 0 ∧
    (running fun j => { j with fetch := some { item := item (.record 16), start := 3, stop := 9 } }).jn.fetch.isSome = true ∧
    (let s := running fun j => { j with fetched := [item (.record 16)] }
     s.jn.hash = none ∧ hashNext s.jn = some (item (.record 16), 5) ∧ s.jn.fault = false) ∧
    ([hashing false false, hashing true false, hashing true true].all fun h => (running fun j => { j with hash := some h }).jn.hash.isSome) = true ∧
    (running fun j => { j with outs := [out false] }).jn.outs = [out false] ∧
    (let s := running fun j => { j with prod := 128, cons := 64 }
     (64 : BitVec 64).toNat % 64 = 0 ∧ s.jn.cons ≤ (64 : BitVec 64).toNat ∧ (128 : BitVec 64).toNat ≤ s.jn.prod ∧ s.jn.prod < (192 : BitVec 64).toNat) := by
  decide
/-- A part of a head slot that waits. -/
def part (k : PartKind) : PartJob := { kind := k, seqNo := 3, chain := List.replicate 32 0, tai := 0, cycle := 0, defer := 0, sig := [1] }
/-- A CHECKPOINT that waits for its signature. -/
def check (sg : Option (List Byte)) : JCheck :=
  { job := part .head, body := [1], sigAt := 64, digestDue := 8, submitted := sg.isSome, sig := sg }
/-- The write of a part into slot 3. -/
def writing (k : PartKind) : PartWrite := { job := part k, slot := 3, bytes := [1, 2], stop := 90 }
/-- A valid head slot of SEQ 3. -/
def headSlot : List Byte :=
  let b := padTo 76 ([0x57, 0x48, 0x53, 0x4C] ++ leBytes 8 1 ++ leBytes 8 3)
  b ++ crcBytes b
theorem test_witness_JournalCheckpoints :
    ((running id).jn.chainOn && !(running id).jn.fault && !(running id).pw.minh && (running id).jn.run) = true ∧
    (((running id).jn.unit ++ (running id).jn.waiting).any fun i => i.kind.isCk) = false ∧ 0 < (running id).jn.sinceCk ∧
    ({ running id with pw := { State.reset.pw with minh := true } } : State).pw.minh = true ∧
    ([check none].find? fun k => !k.submitted) = some (check none) ∧ (check (some [1])).sig = some [1] ∧
    (let s := running fun j => { j with parts := [part .head] }
     s.jn.parts ≠ [] ∧ s.jn.partWrite = none ∧ s.pw.minh = false ∧ s.pw.trimBusy = false ∧ (part .head).kind ≠ .sig ∧ nextSlot s 0 = some 0) ∧
    slotValid headSlot = true ∧ latestSlot State.reset = none ∧ (latestSlot { running id with headSlots := [(7, headSlot)] }).isSome = true ∧ slotOf { running id with headSlots := [(7, headSlot)] } 3 = some 7 ∧ (part .sig).kind = .sig ∧
    ([PartKind.head, .mark, .sig].all fun k => (running fun j => { j with partWrite := some (writing k) }).jn.partWrite.isSome) = true ∧
    (let s := journal fun j => { j with rbase := BitVec.ofNat 52 attBase, rsize := 0x100000 }
     s.jn.en = false ∧ ringValid s.jn = true ∧ s.pw.bootSel ≠ 2) ∧ (journal fun j => { j with startAt := some 8 }).jn.startAt = some 8 := by decide

/-! ## Witnesses: movers, micro-operations, the loader, scrub and the fabric -/

/-- A mover descriptor that moves n bytes between two kinds of place. -/
def moving (srck dstk n : Nat) (status : BitVec 16) : MovRun :=
  { req := { ga := capAt globalBase, base := true, entry := 2, after := none }, off := 0, start := 3, known := true, cur := none, asked := false, srck := srck, dstk := dstk, burst := 0, tags := false, ev := false,
    len := n, haddr := 0x1000, src := capAt (globalBase + 0x1000), dst := capAt (globalBase + 0x2000), next := 0, moved := 0, status := status }
/-- Channel 63 changed. -/
def channel (f : Channel → Channel) : State := modCh 63 f State.reset
/-- Core 0 with channel 63 in register 6 and a descriptor in register 4. -/
def submove (s : State) : State := withNum 6 63 (withReg 4 (capAt globalBase) s)
/-- What came of a background request of channel 63. -/
def arrived63 (job : Nat) (bad : Option Nat) : BgDone := { who := 63, job := job, off := 0, bytes := [1], tags := [], bad := bad, refused := none }
/-- Channel 63 with a descriptor in progress. -/
def running63 (m : MovRun) : State := channel fun x => { x with run := some m }
theorem test_witness_MoverChannels_submission :
    clear (submove State.reset) 0 14 {} = true ∧ paired (operands (submove State.reset) 0) 0 = false ∧ ((submove State.reset).core 0).legacy = false ∧
    descFault ((operandCore (submove State.reset) 0).reg 4) 0 = none ∧ State.reset.mov.ch[63].en = false ∧
    ([3, 5].map fun n => channelOccupied (channel fun x => { x with en := true, queue := List.replicate n (moving 0 0 1 0).req }).mov.ch[63] 0) = [3, 5] ∧
    (let s := settlePort (channel fun x => { x with queue := [(moving 0 0 1 0).req] })
     channelStart s.mov.ch[63] = some 2 ∧ pickDescriptor s.mov.ch[63] = some ((moving 0 0 1 0).req, 0, { s.mov.ch[63] with queue := [] })) ∧
    (let s := settlePort (channel fun x => { x with free := 9, chain := some ((moving 0 0 1 0).req, 64) })
     channelStart s.mov.ch[63] = some 9 ∧ s.mov.ch[63].chain = some ((moving 0 0 1 0).req, 64)) ∧
    (channel fun x => { x with en := true }).mov.ch[63].en = true := by decide +kernel
/-- The state in which a burst of channel 63 is asked for. -/
def burstAt (m : MovRun) : State := let z := moverReady 63 (running63 m); settle (evenFrom z.now) z
theorem test_witness_MoverChannels_bursts :
    ([(0, 0), (1, 1), (0, 1)].all fun p =>
      let m := moving p.1 p.2 65 mvOk
      let w := burstAt m
      (w.mov.ch[63].run == some m) && w.eccBad.isEmpty && w.eccSoft.isEmpty && w.keyBad.isEmpty && w.keySoft.isEmpty &&
      decide (0 < burstBytes m) && decide (m.moved < m.len) &&
      (sideKey w p.1 m.src false (sideAddr p.1 m.src m.haddr 0) (burstBytes m)).isNone &&
      (sideKey w p.2 m.dst true (sideAddr p.2 m.dst m.haddr 0) (burstBytes m)).isNone) = true ∧
    (sideKey State.reset 0 { capAt globalBase with val := setKey (capAt globalBase).val 3 } true globalBase 64).isSome = true ∧
    (∀ k : StackId, State.reset.mov.hbmStacks[k].phyFailed = false) ∧
    ((moverReady 63 (running63 (moving 2 0 65 mvOk))).mov.ch[63].run.map fun m => (m.srck, m.known, m.cur, m.status)) = some (2, true, none, mvOk) := by
  decide +kernel
theorem test_witness_MoverChannels_host : let m := moving 2 0 65 mvOk
    let w := burstAt m
    sideKey w m.srck m.src false (sideAddr m.srck m.src m.haddr m.moved) (burstBytes m) = none ∧
    sideKey w m.dstk m.dst true (sideAddr m.dstk m.dst m.haddr m.moved) (burstBytes m) = none ∧
    (List.replicate (burstBytes m) (0 : Byte)).length = burstBytes m := by
  refine ⟨rfl, ?_, List.length_replicate⟩
  have h : capKey (moving 2 0 65 mvOk).dst.val = 0 := by decide
  show keyRefusal _ (capKey (moving 2 0 65 mvOk).dst.val) _ _ _ = none
  rw [h]
  simp [keyRefusal, keyPasses]
theorem test_witness_MoverChannels_arrivals :
    (let m := unreadDescriptor (moving 0 0 1 0).req 0 3
     let s := { running63 m with bgDone := [arrived63 0 none] }
     s.mov.ch[63].run = some m ∧ m.known = false ∧ doneOf s 63 3 = [] ∧ doneOf s 63 0 = [arrived63 0 none]) ∧
    ([(true, 2, none), (false, 1, none), (false, 1, some 64)].all fun (w, job, bad) =>
      let b : MovBurst := { src := globalBase, dst := globalBase, len := 1, parts := 1, writing := w }
      let s := { running63 { moving 0 0 1 mvOk with cur := some b } with bgDone := [arrived63 job bad] }
      decide (b.parts ≤ (doneOf s 63 (if b.writing then 2 else 1)).length) && (doneOf s 63 3).isEmpty &&
      ((doneOf s 63 job).any fun d => d.bad.isSome) == bad.isSome) = true ∧
    attachedBad State.reset true attBase 1 = none ∧ attBase + 1 ≤ attUsable ∧
    ([mvKey, mvOk].map fun st => let m := { moving 0 0 1 st with moved := 1 }
      ((moverReady 63 (running63 m)).mov.ch[63].run.map fun m => (m.known, m.cur, m.status, decide (m.len ≤ m.moved)))) =
      [some (true, none, mvKey, true), some (true, none, mvOk, true)] ∧
    (let w := settle (State.reset.now / 2 * 2 + 1) State.reset
     inGlobal globalBase 64 = true ∧ globalBase % 64 = 0 ∧ Memory.wf w.mem = true ∧ w.eccBad = []) ∧
    (let s := { channel id with bgDone := [arrived63 3 none] }
     doneOf s 63 3 ≠ [] ∧ s.mov.ch[63].run = none) := by decide +kernel
/-- A routine of core 0 that has just started. -/
def routine : Micro :=
  { word := 0, gd := 3, ga := 4, gb := 5, u := Vector.replicate 16 0xC, flags := 0, link := 3, linkv := true, upc := 0x4400, start := 0, steps := 0,
    watch := 1, loads := [], caused := false, arith := false }
/-- Core 0 in a routine. -/
def within (m : Micro) (s : State) : State := s.modSeq 0 fun q => { q with micro := some m }
/-- A capability in registers 4 and 5 and a packed zero in the u registers. -/
def microState : State := within routine (withReg 4 (capAt 0x1000) (withReg 5 (capAt 16) State.reset))
theorem test_witness_MicroOperations :
    (let s := { State.reset with cfg := { State.reset.cfg with xopent := State.reset.cfg.xopent.set 0 (Vector.replicate 64 0x80008400) } }
     clear s 0 14 { banned := true } = true ∧ (xopent s 0 63).getLsbD 31 = true ∧ vecMemQueued (operandCore s 0).ms (issueCycle s 0) = false) ∧
    (microState.core 0).seq.micro = some routine ∧ runs microState 0 = true ∧ routine.watch < 4096 ∧ microState.eccBad = [] ∧
    opndOk 0 = true ∧ opndOk 0x33 = true ∧ (2 : Wf) ≠ 3 ∧
    ([0x3F, 0xBF, 0x13F, 0x1FF].map fun i => (BitVec.ofNat 14 i).extractLsb' 7 2) = [0, 1, 2, 3] ∧
    (decRead 0xC).isSome = true ∧ (decRead (opndRead ((stepState microState 0 routine).core 0) (stepMicro microState routine) 0).val).isSome = true ∧
    decRead 0 = none ∧ sregOk 0x13 = true ∧ paired (stepState microState 0 routine) 0 = false ∧ (operandCore State.reset 0).legacy = false := by decide
theorem test_witness_MicroSequencing :
    (stepMicro microState routine).linkv = true ∧
    (let a := microAuth (stepState microState 0 routine) 0 (stepMicro microState routine) 0x11 0
     ([1, 16].all fun n => (strFault (stepState microState 0 routine) 0 a n true false false).isNone &&
       (strFault (stepState microState 0 routine) 0 a n false true false).isNone && (strFault (stepState microState 0 routine) 0 a 0 true true false).isNone)) = true ∧
    gCoded 0x10 = true ∧ gCoded 0x33 = true ∧ ((stepState microState 0 routine).core 0).legacy = false ∧
    isSealed (opndRead ((stepState microState 0 routine).core 0) (stepMicro microState routine) 0x11) = false ∧
    ((stepState microState 0 routine).core 0).seq.imprecise = none ∧ trapEnabled (State.reset.core 0) 0x10 = false ∧
    trapEnabled ((withX (fun x => { x with status := 0xFFFFFFFF }) State.reset).core 0) 0x10 = true ∧
    (stepMicro microState routine).caused = false ∧ wouldAccept 0 (stepTime microState routine + 1) (stepState microState 0 routine) = false ∧
    (stepMicro microState { routine with linkv := false }).linkv = false ∧ 4096 ≤ ({ routine with watch := 4096 } : Micro).watch ∧
    runs (within { routine with watch := 4096 } State.reset) 0 = true ∧
    (let m := { routine with watch := 4096 }
     let s := within m State.reset
     baseDue 0 (stepTime s m) ((stepState s 0 m).modSeq 0 fun q => { q with micro := none }) = none) ∧
    (let m := { routine with watch := 4096 }
     let s := within m (withSeq (fun q => { q with mcDue := [{ cycle := 0, info := 0, baddr := 0 }] }) State.reset)
     (baseDue 0 (stepTime s m) ((stepState s 0 m).modSeq 0 fun q => { q with micro := none })).isSome = true) := by decide
/-- A manifest with one routine of two words. -/
def manifest (num w : Nat) : List Byte :=
  leBytes 4 0x4D504F58 ++ leBytes 2 1 ++ leBytes 2 1 ++ leBytes 2 2 ++ leBytes 2 9 ++ leBytes 4 0 ++ List.replicate 96 7 ++
    ([BitVec.ofNat 8 num, 0] ++ leBytes 2 0 ++ leBytes 2 2 ++ leBytes 2 0) ++ leBytes 4 (0x14 * 2 ^ 27) ++ leBytes 4 w ++ List.replicate 96 1
/-- The manifest that passes every check. -/
def goodManifest : List Byte := manifest 3 (0x15 * 2 ^ 27)
/-- A loader over a manifest at the start of the global scratchpad, for core 0. -/
def loading (m : List Byte) (job : Option LoadJob) : State :=
  let h := sha256Bytes (manKey m)
  let l : Loader := { Loader.reset with keyh := Vector.ofFn fun i => BitVec.ofNat 64 (ofLe (slice h (8 * i.val) 8)) }
  let l : Loader := { l with src := capAt globalBase, len := BitVec.ofNat 32 m.length, cores := 1, job := job }
  { State.reset with mem := memWrite [] globalBase m, cfg := { State.reset.cfg with loader := l } }
/-- A load of a manifest at a stage. -/
def loadJob (m : List Byte) (st : Nat) (ok : Option Bool) : LoadJob :=
  { manifest := m, stage := st, addr := globalBase, len := m.length, start := 0, verdict := ok, nextWord := [], due := 4 }
theorem test_witness_XopLoads_go :
    (let s := loading goodManifest none
     let l := s.cfg.loader
     l.busy = false ∧ manSource l.src l.len.toNat = true ∧ l.len.toNat ≠ 0 ∧ enginePresent s l.eng.toNat = true) ∧
    enginePresent { State.reset with grade := .fd480S } 31 = false ∧ manSource TWord.null 8 = false ∧ manSource (capAt globalBase) 0 = true ∧
    manShape [] = false ∧ manShape goodManifest = true ∧ Memory.wf (loading goodManifest none).mem = true := by decide
/-- The blocks of a manifest, as read. -/
def blocksRead (m : List Byte) : List BgDone :=
  (blockParts globalBase m.length).map fun p =>
    { who := 114, job := 0, off := p.1 - globalBase, bytes := slice m (p.1 - globalBase) p.2, tags := [], bad := none, refused := none }
theorem test_witness_XopLoads_read :
    (let j := loadJob goodManifest 3 none
     let s := { loading goodManifest (some j) with bgDone := blocksRead goodManifest }
     s.cfg.loader.job = some j ∧ j.stage = 3 ∧ decide (blocksOf j.addr j.len ≤ (doneOf s 114 0).length) = true ∧
     gathered (doneOf s 114 0) j.len = goodManifest) ∧ goodManifest.length = 224 := by decide +kernel
theorem test_witness_XopLoads_key : sha256Bytes (manKey goodManifest) = keyHash (loading goodManifest none).cfg.loader ∧
    sha256Bytes (manKey goodManifest) ≠ keyHash Loader.reset := by decide +kernel
theorem test_witness_XopLoads_stages : manSpans goodManifest = true ∧ manImage goodManifest = true ∧ manSpans (manifest 99 0) = false ∧
    manImage (manifest 3 7) = false ∧ manCores (loading goodManifest none) = true ∧ manCores ((loading goodManifest none).modX 0 fun x => { x with locked := true }) = false ∧
    loadTargets (loading goodManifest none) = [0] ∧
    ([0, 1, 2].all fun st => (loading goodManifest (some (loadJob goodManifest st (some true)))).cfg.loader.job.isSome) = true ∧
    ((loadTargets (loading goodManifest none)).any fun c => inRoutine (settle 4 (loading goodManifest none)) c) = false ∧
    manWords goodManifest ≤ 3072 ∧ wordsAt (loadJob goodManifest 1 none) 0 = 0 := by decide
theorem test_witness_StackReports : State.reset.mov.hbmStacks[3].hot ≠ true ∧ State.reset.mov.hbmPass ≠ 0 ∧
    ({ State.reset with mov := { State.reset.mov with hbmPass := 0 } } : State).mov.hbmPass = 0 ∧ stackOf attBase = 0 ∧
    attBase + 0 / 32 * 32 < attEnd ∧ attEnd ≤ attBase + (2 ^ 48 - 1) / 32 * 32 ∧
    (let s := upset { at_ := .word (BitVec.ofNat 52 attBase), double := false } State.reset
     eccHit s attBase 32 = none ∧ failedUnit s attBase 32 = none ∧ s.eccSoft = [attBase]) ∧
    (let s := upset { at_ := .word (BitVec.ofNat 52 attBase), double := true } State.reset
     eccHit s attBase 32 = some attBase ∧ failedUnit s attBase 32 = none ∧ s.mov.hbmStacks[stackOf attBase].uev = false) := by decide +kernel
/-- The memory side of core 0 changed. -/
def side (f : MemSide → MemSide) : State := State.reset.modMs 0 f
/-- A request of core 0 to the fabric. -/
def freq (k : FabricKind) : FabricReq := { order := 1, seq := 3, due := 9, addr := globalBase, key := 0, base := true, kind := k }
/-- A load of core 0 on its way. -/
def gload : GLoad := { lid := 7, seq := 3, due := 104, dest := .reg 5 true, data := [0, 0xFF], tag := false, bad := none, twin := false }
/-- A block read of core 0 whose bytes have come. -/
def block : BlockRead := { bid := 1, sent := 3, addr := globalBase, data := some [1], bad := none, toVec := true }
theorem test_witness_FabricAccesses :
    (let e : SbEntry := { off := 8, bytes := [1], tag := none, enter := 5, drained := none }
     ((side fun m => { m with storeBuf := [e] }).core 0).ms.storeBuf.find? (fun e => e.drained.isNone) = some e ∧
     drainCycle ((side fun m => { m with storeBuf := [e] }).core 0).ms e 0 = some 6) ∧
    nextPerform [freq (.store [1, 2] none), freq (.load 7 0 2)] = some 9 ∧ inGlobal (freq (.store [1, 2] none)).addr 2 = true ∧
    ((side fun m => { m with freqs := [freq (.load 7 0 2)], gloads := [gload] }).core 0).ms.gloads = [gload] ∧ gload.data.length = 2 ∧
    firstLoad [gload] = some gload ∧ (∀ r ∈ [freq (.store [1, 2] none)], ∀ off n, r.kind ≠ .load gload.lid off n) ∧ gload.twin = false ∧ gload.bad = none ∧
    ({ gload with twin := true } : GLoad).twin = true ∧ ([1, 2] : List Byte).length ≠ 64 ∧ (5 : Reg) ≠ 0 ∧
    ((side fun m => { m with blocks := [block] }).core 0).ms.blocks = [block] ∧ block.data = some [1] ∧ State.reset.eccBad = [] ∧ State.reset.eccSoft = [] := by
  refine ⟨by decide, by decide, by decide, by decide, by decide, by decide, ?_, by decide, by decide, by decide, by decide, by decide, by decide, by decide, by decide, by decide⟩
  intro r h off n
  simp only [List.mem_singleton] at h
  subst h
  exact FabricKind.noConfusion
theorem test_witness_FabricAccesses_arrive :
    (let q : FabricReq := { freq (.load 7 0 8) with addr := ctlBase + 0x500018 }
     ((side fun m => { m with freqs := [q] }).core 0).ms.freqs.find? (fun q => match q.kind with | .load _ _ len => overlaps q.addr len (ctlBase + 0x500018) 8 | _ => false) =
       some q) ∧ runs State.reset 0 = true ∧ runs (State.reset.modSeq 0 fun q => { q with inReset := true }) 0 = false ∧
    ((sendLoad 0 0 (ctlBase + 0x500018) 8 (.reg 5 false) 0 true State.reset).core 0).ms.freqs.length = 1 ∧
    ({ gload with data := List.replicate 8 0 } : GLoad).data.length = 8 ∧ ringExists State.reset 0 = true := by decide

/-! ## Witnesses: background requests, scrub, the host link, clocks, resets, supplies, sideband, registers -/

/-- Ring 5 changed, with 30 virtual functions. -/
def ring (f : Ring → Ring) : State :=
  { State.reset with link := { State.reset.link with vfEnable := true, numVfs := 30, rings := State.reset.link.rings.set 5 (f Ring.reset) } }
/-- Ring 5 enabled, changed. -/
def ringed (f : Ring → Ring) : State := ring fun x => f { x with en := true, cred := BitVec.allOnes 64, ceil := 1 }
/-- An arrival. -/
def arrival : Arrival := { slot := 3, rgen := 0, len := 40, acyc := 77, cycle := 0 }
/-- A background request of channel 3 to bank 0, and scrubber 0 changed. -/
def bgread : BgReq := { who := 3, addr := globalBase, sent := 4, after := none, job := 1, off := 0, what := .read 64 }
def scrubber (f : Scrubber → Scrubber) (s : State) : State :=
  { s with slath := { s.slath with units := s.slath.units.set 0 (f Scrubber.reset) } }
theorem test_witness_BackgroundRequests : State.reset.keyBad = [] ∧ State.reset.keySoft = [] ∧ doneOf State.reset 3 1 = [] ∧
    (some (0 : BitVec 4)).bind (fun k => keyRefusal State.reset k false globalBase 64) = none ∧
    ((some (1 : BitVec 4)).bind fun k => keyRefusal (keyed State.reset) k false globalBase 64).isSome = true ∧
    phaseUsed State.reset 4 0 = false ∧ phaseUsed (usePhase 4 0 State.reset) 4 0 = true ∧ scrubClaims State.reset 4 0 = false ∧
    bgPort bgread.addr = some 0 ∧ bgPending { State.reset with bg := [bgread] } 4 bgread = true ∧
    bgPending { State.reset with bg := [bgread] } 3 bgread = false ∧ (0 : ScrubberId).val = 0 ∧
    scrubClaims (scrubber (fun x => { x with starved := true, dueRows := 1 }) State.reset) 1023 0 = true ∧
    inGlobal bgread.addr 64 = true ∧ State.reset.eccBad = [] ∧ State.reset.eccSoft = [] ∧ Memory.wf State.reset.mem = true := by decide +kernel
theorem test_witness_Scrub : State.reset.slath.scrubEn = true ∧ scrubPresent State.reset 0 = true ∧ State.reset.slath.units[0].dueRows = 0 ∧
    (let s := scrubber (fun x => { x with dueRows := 1 }) State.reset
     s.slath.units[0].dueRows ≠ 0 ∧ s.slath.units[0].starved = false ∧ s.slath.scrubEn = true) ∧
    ({ State.reset with slath := { State.reset.slath with scrubEn := false } } : State).slath.scrubEn = false ∧
    (let s := { State.reset with bg := [{ bgread with sent := 0 }] }
     phaseUsed s 0 0 = false ∧ (s.bg.any fun r => bgPort r.addr == some 0 && bgPending s 0 r) = true ∧ scrubClaims s 0 0 = false) ∧
    scrubAddr 0 0 = globalBase ∧ globalBase ≤ globalBase + 16 ∧ globalBase + 16 < globalBase + 64 ∧
    ({ State.reset with eccSoft := [globalBase + 16] } : State).eccSoft = [globalBase + 16] ∧
    globalBase + 32 ∈ ({ State.reset with eccBad := [globalBase + 32] } : State).eccBad := by decide +kernel
theorem test_witness_Rings_slots : ringExists (hostCrosses (ring id)) 5 = true ∧
    takesRequest State.reset 2 = none ∧ takesRequest State.reset 1 = some true ∧
    takesRequest { State.reset with link := { State.reset.link with d3hot := 2 } } 1 = some false ∧
    bar2Parts 0 0 4 = none ∧ bar2Parts 1 0xA0000 4 = some [(0xA0000, 0, ([1, 2, 3, 4] : List Byte).length)] ∧
    ringAt 0xA0000 = 5 ∧ (0xA0000 % 0x800 + 4 ≤ 0x800) ∧ ringAt 0x7FFFFF = 63 ∧
    ([ringed id, ringed fun x => { x with cred := 0 }].map fun s => let v := hostCrosses s
      decide (0xA0000 < 0x800000) && ringOn v 5 && v.link.rings[5].cred.getLsbD (0xA0000 / 0x800 % 64)) = [true, false] ∧
    (6 : FunctionId).val = (5 : RingId).val + 1 ∧ (5 : RingId) ≠ 0 ∧ 0x20000 + 4 ≤ 0x40000 ∧ 0x40000 < 0x3FFFE + 4 := by decide +kernel
theorem test_witness_Rings_doorbells :
    ([(1, 0), (2048, 0), (0, 0), (2049, 0), (2048, 1), (2048, 2)].map fun p =>
      let v := hostCrosses (awaitJob 115 0 16384 (ringed fun x => { x with wcnt := BitVec.ofNat 16 p.2 }))
      let x := v.link.rings[5]
      (ringOn v 5 && x.cred.getLsbD 63 && decide (1 ≤ p.1) && decide (p.1 ≤ 2048), decide (x.wcnt.toNat + 1 ≤ x.ceil.toNat))) =
      [(true, true), (true, true), (false, true), (false, true), (true, false), (true, false)] ∧
    ([(0, 0), (1, 1), (2, 1), (2, 2)].map fun p =>
      let s := ringed fun x => { x with state := BitVec.ofNat 2 p.1, wcnt := BitVec.ofNat 16 p.2 }
      let x := (settle (max s.now (200000 * (s.link.window + 1))) s).link.rings[5]
      (x.state, decide (x.wcnt.toNat ≤ x.ceil.toNat), s.link.early)) = [(0, true, 0), (1, true, 0), (2, true, 0), (2, false, 0)] ∧
    ({ State.reset with link := { State.reset.link with early := 1 } } : State).link.early = 1 ∧ State.reset.link.vfEnable = false ∧
    (ring id).link.vfEnable = true ∧ State.reset.link.up = false ∧ (16 : BitVec 5) ∈ ([4, 8, 16] : List (BitVec 5)) ∧
    (6 : BitVec 4) ∈ ([4, 5, 6] : List (BitVec 4)) ∧ (1 : BitVec 5) ∉ ([4, 8, 16] : List (BitVec 5)) := by decide +kernel
/-- A post of ring 5. -/
def post : Post := { ring := 5, slot := 3, live := true, len := 65, rcode := 7, cycle := 4, after := none }
/-- A busy arrival of ring 5, and its response in progress. -/
def busyItem : BusyItem := { ring := 5, slot := 3, live := true, len := 30, cycle := 4 }
def busyRun : BusyRun := { item := busyItem, start := 3, echo := 30, body := [1] }
/-- A word stored into EPOST. -/
def epostWord : BitVec 64 := 0x0003080000000007
/-- Ring 5's channel with a post that waits, or one being sent. -/
def egressing (cur : Option Transfer) : State :=
  let s := ringed id
  { s with link := { s.link with egress := s.link.egress.set (ringChannel 5) { Egress.reset with posts := [post], cur := cur } } }
theorem test_witness_Responses :
    (let s := ringed fun x => { x with admitted := 8 }
     epostWord.extractLsb' 44 4 = s.link.rings[5].rgen ∧ (epostWord.extractLsb' 48 6).toNat = 3 ∧ (epostWord.extractLsb' 32 12).toNat = 2048 ∧
     (ringOn s 5 && s.link.rings[5].admitted.getLsbD 3) = true) ∧ (ringOn (ringed id) 5 && (ringed id).link.rings[5].admitted.getLsbD 3) = false ∧
    (0x0003180000000007 : BitVec 64).extractLsb' 44 4 ≠ (ringed id).link.rings[5].rgen ∧
    ([none, some ({ post := post, start := 3, stop := 140 } : Transfer)].map fun t =>
      let e := (egressing t).link.egress[ringChannel 5]
      (e.cur.isSome, e.posts.length)) = [(false, 1), (true, 1)] ∧
    post.live = true ∧ ({ post with live := false } : Post).live = false ∧ busyItem.live = true ∧
    ([0, 1, 2].map fun n => (openWindows (ringed fun x => { x with state := BitVec.ofNat 2 n })).link.rings[5].state) = [0, 1, 2] ∧
    State.reset.link.busyRun = none ∧
    (let s := { ringed id with link := { (ringed id).link with busyRun := some busyRun } }
     (awaitBg 116 16384 (settle (2 * (busyRun.start + 1999) + 1) s)).link.busyRun.isSome = true) ∧
    (([0, 16] : List (BitVec 9)).map fun e =>
      let s := { (ringed fun x => { x with echo := e }) with link := { (ringed fun x => { x with echo := e }).link with busyQ := [busyItem] } }
      (s.link.busyRun.isNone, s.link.busyQ.length, min ((settle 8 s).link.rings[5].echo.toNat) busyItem.len.toNat)) = [(true, 1, 0), (true, 1, 16)] ∧
    (let d : BgDone := { who := 116, job := 0, off := 0, bytes := [1], tags := [], bad := none, refused := none }
     let s := { State.reset with bgDone := [d], link := { State.reset.link with busyRun := some { busyRun with echo := 1 } } }
     doneOf s 116 1 = [] ∧ doneOf s 116 0 = [d] ∧ decide ((blockParts (ingressSlot 5 3) 1).length ≤ [d].length) = true) := by decide +kernel
/-- The aperture open at the start of attached memory. -/
def aperture : State :=
  { State.reset with link := { State.reset.link with apEn := true, apBase := BitVec.ofNat 22 (attBase / 2 ^ 30) } }
theorem test_witness_LinkAccesses_aperture :
    (let w := settle (evenFrom aperture.now) aperture
     let a := w.link.apBase.toNat * 2 ^ 30 + 64
     takesRequest w 0 = some true ∧ (w.link.apEn && inAttached a 64) = true ∧ attachedCheck w w.link.apKey false a 64 = none ∧
     attachedCheck w w.link.apKey true a 64 = none ∧ Memory.wf w.mem = true ∧ a + 64 ≤ attUsable ∧
     ([false, true].map fun st => (attachedCheck (setKeyByte w a 0x10) 1 st a 64).map (·.1)) = [some 1, some 1] ∧
     ([false, true].map fun st => (attachedCheck { w with eccBad := [a] } 0 st a 16).map (·.1)) = [some 2, some 2]) ∧
    (State.reset.link.apEn && inAttached attBase 64) = false := by decide +kernel
theorem test_witness_LinkAccesses : takesRequest State.reset 2 = none ∧ takesRequest State.reset 0 = some true ∧
    takesRequest { State.reset with link := { State.reset.link with d3hot := 1 } } 0 = some false ∧
    (0 % 8 + 8 ≤ 8 ∧ 0 + 8 ≤ 0x1000) ∧ ¬(4 % 8 + 8 ≤ 8) ∧ bar2Parts 0 0 4 = none ∧ bar2Parts 1 0 4 = some [(0, 0, 4)] ∧
    hostSees 0 = false ∧ (hostCrosses State.reset).link.mbBusy = false ∧ 1 ≤ (4096 : BitVec 13).toNat ∧ (4096 : BitVec 13).toNat ≤ 4096 ∧
    (hostCrosses { State.reset with link := { State.reset.link with mbBusy := true } }).link.mbBusy = true := by decide +kernel
theorem test_witness_ClocksAndTime : State.reset.pw.clkLean = true ∧ modeChangeAllowed State.reset 0 = true ∧
    modeChangeAllowed (State.reset.modSeq 1 fun q => { q with inReset := false }) 0 = false ∧
    ([true, false].all fun b =>
      let p := { State.reset.pw with clkSwitch := some (8, b), taiArm := b, edgesSeen := true, tsok := b }
      p.clkSwitch == some (8, b) && p.taiArm == b && p.tsok == b) = true ∧
    (State.reset.pw.wrapped = false ∧ State.reset.pw.taiNs.toNat + 100 * ((State.reset.now - State.reset.pw.taiCycle) / 100) < 1000000000) := by decide
/-- An image that the ROM accepts, and the hash of its key, the image as one number with its first byte the lowest. -/
def bootImage : List Byte := leBytes 608
  0xf6305ddf2ee5d6698ba827b3e0124c5f0d922d2d73891880a5459f92367853fd8b32931586963b0eb7698adf8f4968db70a7672385e543a6c2955bf5df20255382a5482e041f759989ba78b623b1d6e74ad20f31ec7b18e37058bbe22ca87aa00000000000000000000000000000000000000000000000000000000000000000000000000000000000000000000000000000000000000000000000000000000000000000000000000000000000000000000000000000000000000000000000000000000000000000000000000000000000000000000000000000000000000000000000000000000000000000000000000000000000000000000000000000000000000000000000000000000000000000000000000000000000000000000000000000000000000000000000000000000000000000000000000000000000000005f0eea907c1d437a9d817e1dceb1600ac0b8f0b51331dae97c149a28bd1df4f829dc9292bf989e5d6f2c26964ade1736b70a7672385e543a6c2955bf5df20255382a5482e041f759989ba78b623b1d6e74ad20f31ec7b18e37058bbe22ca87aa000000000000000000000000000000000000000000000000000000000000000000000000000000000000000000000000000000000000000000000000000000000000000000000000000000000000000000000000000000000000000000000000000000000000000000000000000000000000000000000000000000000000000000000000000000000000000000000000000000000000000000000000000000000000000000000000000000000007000000000000000002600000000149424446
/-- See `bootImage`. -/
def bootHash : List Byte := leBytes 48
  0x654b811f19e108eab70600d86aa5f04bfad296f7d87d69500977a9c8d122aa9478e155e5cfb05280eb82b571b14d9da1
/-- The device held in reset, with that hash in OKH and training seeds. -/
def held : State :=
  let p := { State.reset.pw with resetHeld := true, okhDone := true, okh := bootHash, seedsValid := true }
  { State.reset with pw := { p with resetDue := none } }
theorem test_witness_ResetsAndStartup_header : imgHeader bootImage = true := by decide +kernel
theorem test_witness_ResetsAndStartup_key : imgKey held bootImage = true := by decide +kernel
/-- A multiple of a point from the multiple h by its upper bits, over its m lower bits. -/
def ecTail (c : EcCurve) (q h : EcPoint) : Nat → Nat → EcPoint
  | 0, _ => h
  | m + 1, k =>
    let t := ecTail c q h m (k / 2)
    let d := ecAdd c t t
    if k % 2 = 1 then ecAdd c d q else d
theorem ecMul_tail (c : EcCurve) (q : EcPoint) (n m : Nat) : ∀ k, ecMul c q (n + m) k = ecTail c q (ecMul c q n (k / 2 ^ m)) m k := by
  induction m with
  | zero => intro k; simp [ecTail]
  | succ m ih =>
    intro k
    rw [← Nat.add_assoc]
    simp only [ecMul, ecTail, ih]
    rw [Nat.div_div_eq_div_mul, Nat.mul_comm, ← Nat.pow_succ]
theorem ecMul_on {c : EcCurve} {q h r : EcPoint} {n m k k' : Nat} (a : ecMul c q n k = h) (e : k' / 2 ^ m = k)
    (t : ecTail c q h m k' = r) : ecMul c q (n + m) k' = r := by rw [ecMul_tail, e, a, t]
/-- The key of `bootImage`. -/
def bootKey : EcPoint := some (0xaa87ca22be8b05378eb1c71ef320ad746e1d3b628ba79b9859f741e082542a385502f25dbf55296c3a545e3872760ab7,
      0x3617de4a96262c6f5d9e98bf9292dc29f8f41dbd289a147ce9da3113b5f0b8c00a60b1ce1d7e819d7a431d7c90ea0e5f)
theorem boot_base1 : ecMul p384 p384.base 96 0x477ede8611efe16e1b61c94e =
    some (0x5a833dd67a0cc006af91b5e10e7015418892cc88af1e4d16235160c3c68e8583b4353444d87196db68edeaa155e99293,
      0x3a12382df182352ff0af8eddb2daf28f21d04c308db449605e3466b16742d9b4c3f2f9ad78b26c41c3ebe591abef0e56) :=
  by decide +kernel
theorem boot_base2 : ecMul p384 p384.base 192 0x477ede8611efe16e1b61c94e80359552d8bc8fb3addbc69b =
    some (0x95314673c5ef4a51ef7655a7168773d6289fb3660a94371fc3ea750a9257f70f45a22bfba974ff48429fb0888b3541b2,
      0x4502a452a2d86189f3f76ef58e8b398fca0af2b6a0028b647d3711b881653beaf9b7503a3c6487b6075c19196539011f) :=
  ecMul_on boot_base1 (m := 96) (by decide +kernel) (by decide +kernel)
theorem boot_base3 : ecMul p384 p384.base 288 0x477ede8611efe16e1b61c94e80359552d8bc8fb3addbc69b02fb30dd3ba324168ba1eb42 =
    some (0xe344ff125b357adb279b90ce3faff871c08224f48c82a6ea2d72fd5fdea9cbeb1a063c9cde9850170cd7af7e3f36dc8b,
      0x8e5577efbf3c542e18111b63fd2303f5e0e7588ded9eb643dbb00ce30ec3dc5ded96edf7c8cf3a99e22fe7fdebbd86df) :=
  ecMul_on boot_base2 (m := 96) (by decide +kernel) (by decide +kernel)
theorem boot_base4 : ecMul p384 p384.base 384 0x477ede8611efe16e1b61c94e80359552d8bc8fb3addbc69b02fb30dd3ba324168ba1eb42f492ff7136df0fd77193b77c =
    some (0xb0d14aa087bbc1839f1010785c7c037e40a47f37944155f60828c02b23b0f72d13b4080973d5ff4fe7ce01ac07276272,
      0xe14bc876b096838e03dff34fc81322811a530e04fd46124c9b810fcfc45fee47eaae59b25129f3f26f6a039b1442f071) :=
  ecMul_on boot_base3 (m := 96) (by decide +kernel) (by decide +kernel)
theorem boot_key1 : ecMul p384 bootKey 96 0xb8812179ee101e91e49e36b1 =
    some (0x269d2836c350531f07671b4b6fc9fa790ad6c3845503f2285af257fb3559aa6ca4db8a5a02aba5821e8f981ee8dd7bb2,
      0x51a98697877a242e4fae422a595ff00037d0220cfe27c141ca0191fd9f779f10468c94b6f46efd0c601659ee5ad2f2ab) :=
  by decide +kernel
theorem boot_key2 : ecMul p384 bootKey 192 0xb8812179ee101e91e49e36b17fca6aad2743704c52243964 =
    some (0x64ed2ac39a81154d1ccc81162986089395732555957e2c77efae189abd8787ff44c521374facdb2ddea4d04e063c8cbe,
      0x5da266b90f365ac3deba68f4411e485ac169fb14d9e727722a19fff1bb33ddeb1eb8a7718e22bcb526e46df8842fb5b3) :=
  ecMul_on boot_key1 (m := 96) (by decide +kernel) (by decide +kernel)
theorem boot_key3 : ecMul p384 bootKey 288 0xb8812179ee101e91e49e36b17fca6aad2743704c52243964c4681ca4b89409c8cc78226f =
    some (0x92aeaeb74f7b24e40706769459e540e6f6d5620bc175700019a57050b1a53ff14fa676db44ae5aa0f0d7ba6a16b5e005,
      0xa990ca6f98bc03790c0d105d10c4410d88eba69c7ca21629650f558d3abb75d73326e39d5d8326067afb517fc7e7225e) :=
  ecMul_on boot_key2 (m := 96) (by decide +kernel) (by decide +kernel)
theorem boot_key4 : ecMul p384 bootKey 384 0xb8812179ee101e91e49e36b17fca6aad2743704c52243964c4681ca4b89409c8cc78226f541da809b60d09935b3171f8 =
    some (0xcf89c61c15022ecdd069cbd314f9c721e49ace21293d9ef1cdf2c6421d1fcd9e957fefec0d3e6fa24384e6f8215671db,
      0x950358083c00c244706d2c7137fdcb7232c0e6aa477b0d92143d7782dd9eb7c2700bc1f05921926f725345836250de67) :=
  ecMul_on boot_key3 (m := 96) (by decide +kernel) (by decide +kernel)
theorem ecdsa_of {c : EcCurve} {pub digest sig : List Byte} {q a b : EcPoint} {u v : Nat} (hp : ecParse c pub = q) (hq : q.isSome = true)
    (hr : ¬(ofBe (sig.take c.size) = 0 ∨ c.n ≤ ofBe (sig.take c.size) ∨ ofBe (sig.drop c.size) = 0 ∨ c.n ≤ ofBe (sig.drop c.size)))
    (hu : ofBe digest * invMod c.n (ofBe (sig.drop c.size)) % c.n = u)
    (hv : ofBe (sig.take c.size) * invMod c.n (ofBe (sig.drop c.size)) % c.n = v)
    (ha : ecMul c c.base (8 * c.size) u = a) (hb : ecMul c q (8 * c.size) v = b)
    (hx : ((ecAdd c a b).map fun p => p.1 % c.n) = some (ofBe (sig.take c.size))) : ecdsaVerify c pub digest sig = true := by
  subst hu hv ha hb
  obtain ⟨z, rfl⟩ := Option.isSome_iff_exists.mp hq
  simp only [ecdsaVerify, hp, hr, if_false, ecScale]
  split
  · rename_i x y h; rw [h] at hx; simpa using hx
  · rename_i h; rw [h] at hx; simp at hx
theorem boot_key_parsed : ecParse p384 (slice bootImage 0xC0 96) = bootKey := by decide +kernel
theorem boot_numbers :
    let sig := (bootImage.take (imgLen bootImage)).drop (imgLen bootImage - 96)
    let s := ofBe (sig.drop p384.size)
    ¬(ofBe (sig.take p384.size) = 0 ∨ p384.n ≤ ofBe (sig.take p384.size) ∨ s = 0 ∨ p384.n ≤ s) ∧
    ofBe (sha384Bytes (bootImage.take (imgLen bootImage - 96))) * invMod p384.n s % p384.n =
      0x477ede8611efe16e1b61c94e80359552d8bc8fb3addbc69b02fb30dd3ba324168ba1eb42f492ff7136df0fd77193b77c ∧
    ofBe (sig.take p384.size) * invMod p384.n s % p384.n =
      0xb8812179ee101e91e49e36b17fca6aad2743704c52243964c4681ca4b89409c8cc78226f541da809b60d09935b3171f8 ∧
    ((ecAdd p384 (some (0xb0d14aa087bbc1839f1010785c7c037e40a47f37944155f60828c02b23b0f72d13b4080973d5ff4fe7ce01ac07276272,
      0xe14bc876b096838e03dff34fc81322811a530e04fd46124c9b810fcfc45fee47eaae59b25129f3f26f6a039b1442f071)) (some (0xcf89c61c15022ecdd069cbd314f9c721e49ace21293d9ef1cdf2c6421d1fcd9e957fefec0d3e6fa24384e6f8215671db,
      0x950358083c00c244706d2c7137fdcb7232c0e6aa477b0d92143d7782dd9eb7c2700bc1f05921926f725345836250de67))).map fun p => p.1 % p384.n) =
      some (ofBe (sig.take p384.size)) := by decide +kernel
theorem test_witness_ResetsAndStartup_signature : imgSigned bootImage = true := by
  unfold imgSigned
  exact ecdsa_of boot_key_parsed rfl boot_numbers.1 boot_numbers.2.1 boot_numbers.2.2.1 boot_base4 boot_key4 boot_numbers.2.2.2
theorem test_witness_ResetsAndStartup_image : imgRefusal held bootImage = none := by
  simp [imgRefusal, test_witness_ResetsAndStartup_header, test_witness_ResetsAndStartup_key, test_witness_ResetsAndStartup_signature]
theorem test_witness_ResetsAndStartup : held.pw.trip = false ∧ held.pw.resetHeld = true ∧ held.pw.seedsValid = true ∧
    held.pw.clkLost = false ∧ (rctFails [] || aptFails []) = false ∧ 10000 ≤ 10000 ∧
    State.reset.pw.resetDue = none ∧ 0 + nsToCc State.reset 20 = 20 ∧ ({ held.pw with trip := true } : Power).trip = true ∧
    ({ held.pw with resetDue := some (8, 0x20) } : Power).resetDue = some (8, 0x20) ∧ (0 : BitVec 32) ≠ 0x52535421 := by decide
theorem test_witness_SuppliesAndFuses :
    ([true, false].all fun b =>
      let p := { State.reset.pw with mwarn := b, minh := b, trimBusy := b, okhBusy := b, okhDone := b }
      p.mwarn == b && p.minh == b && p.trimBusy == b && p.okhBusy == b && ((p.okhDone || p.okhBad) == b)) = true ∧
    State.reset.cfg.lock = false ∧ ({ State.reset.cfg with lock := true } : Cfg).lock = true ∧
    ([0x05F0, 0x05CF, 0x0730].map fun n => (decide (State.reset.pw.thCfg.toInt ≤ (BitVec.ofNat 16 n).toInt),
      decide ((BitVec.ofNat 16 n).toInt < State.reset.pw.thCfg.toInt - 32), decide (tripLevel State.reset.grade ≤ (BitVec.ofNat 16 n).toInt))) =
      [(true, false, false), (false, true, false), (true, false, true)] := by decide
/-- The sideband changed. -/
def sideband (f : Sideband → Sideband) : State := { State.reset with sb := f State.reset.sb }
theorem test_witness_SuppliesAndFuses_sources : inGlobal globalBase 0xFFC = true ∧ inGlobal globalBase 48 = true ∧ State.reset.eccBad = [] ∧
    State.reset.eccSoft = [] ∧ State.reset.pw.okhBusy = false ∧ State.reset.pw.minh = false ∧ (State.reset.pw.okhDone || State.reset.pw.okhBad) = false ∧
    [(5 : BitVec 16)] ≠ [] := by decide
theorem test_witness_SidebandTransfers :
    ([0, 15, 16].map fun n => decide ((sideband fun b => { b with uartTx := List.replicate n 0 }).sb.uartTx.length < 16)) = [true, true, false] ∧
    ([0, 1, 72, 73].map fun n => decide (1 ≤ (List.replicate n (0 : Byte)).length) && decide ((List.replicate n (0 : Byte)).length ≤ 72)) =
      [false, true, true, false] ∧ State.reset.sb.uartEnd = none ∧ (sideband fun b => { b with uartEnd := some 5 }).sb.uartEnd = some 5 ∧
    (settle 5 (sideband fun b => { b with uartEnd := some 5, uartTx := [7] })).sb.uartTx = [7] ∧ State.reset.sb.smRx.length < 8 ∧
    (let q : FabricReq := { freq (.load 7 0 8) with addr := ctlBase + 0x600308 }
     q.kind = .load gload.lid 0 8 ∧ ((side fun m => { m with gloads := [{ gload with data := List.replicate 8 0 }] }).core 0).ms.gloads.length = 1) ∧
    (sideband fun b => { b with smOffer := some [1] }).sb.smOffer = some [1] ∧ State.reset.sb.smOffer = none ∧
    1 ≤ (72 : BitVec 7).toNat ∧ (72 : BitVec 7).toNat ≤ 72 ∧ State.reset.sb.qRun = none ∧ qspiRefused State.reset.sb = true ∧
    qspiRefused { State.reset.sb with qDst := BitVec.ofNat 52 globalBase, qLen := 64 } = false ∧
    (sideband fun b => { b with qRun := some (globalBase, 64, 9) }).sb.qRun = some (globalBase, 64, 9) ∧
    0 < [(1 : Byte)].length ∧ inGlobal globalBase [(1 : Byte)].length = true ∧ Memory.wf State.reset.mem = true := by decide
theorem test_witness_RegisterWrites : State.reset.ev.levels = [] ∧ State.reset.grade ≠ .fd480S ∧
    Machine.within ctlBase 8 ctlBase ctlSize = true ∧ Machine.within globalBase 8 ctlBase ctlSize = false ∧ Machine.within ctlBase 8 ctlBase 0x500000 = true ∧
    ctlBase % 8 + 8 ≤ 8 ∧ 8 < 16 := by decide

/-! ## A witness of the frame, and more worked examples -/

theorem test_witness_RegisterInstructionFrame : let s := withSeq (fun q => { q with inflight := [{ due := 90, seq := 0, what := .reg 3 TWord.null }] }) State.reset
    ((operands s 0).core 0).seq.inflight = [{ due := 90, seq := 0, what := .reg 3 TWord.null }] := by decide
/-- R277: the bounds of the worked example of CSETB. -/
theorem test_csetb :
    let g3 := setKey (setPerms (capAt 0x0010000123450).val 0x3001) 5
    (setBounds { val := g3, tag := true } 0x300010).map (fun r => (r.1.val, r.2)) = some (0xC005_4000_4234_6091_A280_0100_0012_3450, true) := by decide
/-- R140: the product of the worked conversion, and the same scaled and rounded. -/
theorem test_dmul : gets (ran (.dmul 0 14 6 4 5) (nums 0x123456789C 0x108273519C)) 6 = 0x0013_3671_0098_9470_491C := by decide
theorem test_dsrr : gets (ran (.dsrr 0 14 7 4 0x38 0) (nums 0x0013_3671_0098_9470_491C 0)) 7 = 0x13_3671_010C := by decide
/-- R240: its first row and its last. -/
theorem test_float_edges :
    ([0, 1, 2, 3].map fun m => (fpMul (BitVec.ofNat 32 m) (fpRead false 1) (fpRead false 0x3F000000)).v) =
      [0, 0, 1, 0] ∧
    ([0, 1, 2, 3].map fun m => (fpAdd (BitVec.ofNat 32 m) (fpRead false 0x7F7FFFFF) (fpRead false 0x7F7FFFFF)).v) =
      [0x7F800000, 0x7F7FFFFF, 0x7F800000, 0x7F7FFFFF] := by decide
/-- R106: the lean cost of MUL.64 by 1,000 is 3. -/
theorem test_mul_lean : ((ran (.mul 0 14 1 3 4 5) (nums 7 1000)).core 0).seq.nextIssue = 3 ∧
    gets (ran (.mul 0 14 1 3 4 5) (nums 7 1000)) 3 = 7000 := by decide
/-- R168: the edit pattern of the worked example over +12,550. -/
theorem test_edm :
    let p : List Byte := [0x20, 0x18, 0x2C, 0x18, 0x18, 0x18, 0x2C, 0x18, 0x18, 0x19, 0x2E, 0x18, 0x18, 0x1B, 0x43, 0x52]
    let s := withReg 2 (capAt 0x1000) (withNum 4 0x12550C (withNum 5 0x0008_2000_0000_0010 State.reset))
    let u := settle 60 (ran (.edm 0 14 2 4 5) { s with mem := memWrite [] (ldsBase 0 + 0x1000) p })
    u.bytes (ldsBase 0 + 0x1000) 16 = [0x20, 0x20, 0x20, 0x20, 0x20, 0x20, 0x20, 0x31, 0x32, 0x35, 0x2E, 0x35, 0x30, 0x20, 0x20, 0x20] ∧
    (gets u 5).toNat % 2 ^ 76 = 0x013F_2000_0000_0000 := by decide +kernel
/-- R336: core 8 was the last, core 12 is locked up: the doorbell of event 100 goes to core 10, and the next to core 8. -/
theorem test_rotation :
    let s := { State.reset with ev := { State.reset.ev with route := State.reset.ev.route.set 100 0x60000000001500, lastCore := State.reset.ev.lastCore.set 100 (some 8) } }
    let s := ([8, 10, 12] : List CoreId).foldl (fun s c => s.modSeq c fun q => { q with inReset := false }) s
    let s := s.modX 12 fun x => { x with locked := true }
    (raiseCores 100 1300 (raiseCores 100 1000 s)).ev.acts.map (fun a => (a.due, a.core)) = [(1002, 10), (1302, 8)] := by decide
/-- R382: the verify of the worked example is fetched in fc 5,002 to 5,139 and computed in 5,140 to 29,139. -/
theorem test_engine_stages :
    let d := leBytes 2 0x0102 ++ [0, 0] ++ leBytes 4 96 ++ leBytes 4 0 ++ leBytes 4 0x1000
    let s := modEngine 5 (fun g => { g with queue := [{ ga := capAt globalBase, gb := capAt (globalBase + 0x400), source := .core 0 true, entry := 5002, after := none, marked := false }] })
      { State.reset with mem := memWrite [] globalBase d, lean := false }
    ((settle 10270 (ran (.engineFetch 5) s)).engines[5].fetch.map fun f => [f.start, f.fetchEnd, f.cmpStart, f.cmpEnd]) =
      some [5002, 5139, 5140, 29139] := by decide +kernel
/-- R385, by the vectors of FIPS 180-4 and FIPS 197. -/
theorem test_sha256 : sha256Bytes [0x61, 0x62, 0x63] =
    (leBytes 32 0xba7816bf8f01cfea414140de5dae2223b00361a396177a9cb410ff61f20015ad).reverse := by decide +kernel
theorem test_aes : aesEnc (aesKeys (leBytes 16 0x000102030405060708090a0b0c0d0e0f).reverse) (leBytes 16 0x00112233445566778899aabbccddeeff).reverse =
    (leBytes 16 0x69c4e0d86a7b0430d8cdb78070b4c55a).reverse := by decide +kernel
/-- R466: the stack of a chunk is its number modulo 4. -/
theorem test_stack : ([0, 255, 256, 1024].map fun o => (stackOf (attBase + o)).val) = [0, 0, 1, 0] := by decide
/-- R92, R128, R184, R194: words written out field by field, and the commands that they are. -/
theorem test_decode_add : decodeWord 0 0xE0000000 = some (.add 0 14 0 0 0 0) := by decide
theorem test_decode_vdadd : decodeWord 0 0xEE842090 = some (.vdadd 0 14 2 2 1 1) := by decide
theorem test_decode_vgathd : decodeWord 0 0xEEC4A1A5 = some (.vgathd 0 14 2 10 3 2) := by decide
theorem test_decode_fldw : decodeWord 0 0xECE90880 = some (.fldw 0 14 20 16 17) := by decide
/-- R352, R355, R356: microwords written out field by field. -/
theorem test_decode_microwords : decodeMicroword 0 0x0068A634 = some (.microSub 0 3 0x11 0x13 2 true) ∧
    decodeMicroword 0 0x40A03FFF = some (.lit 0 5 0x3FFF) ∧ decodeMicroword 0 0xA4000000 = some (.yield 0 true) ∧
    decodeMicroword 0 0x4848A500 = some (.mld 0 2 0x11 0x12 4) ∧ decodeMicroword 0 0xC0000000 = none := by decide

end Sys2Proof.Tests
end

section
/-! SUPPORT. Words of n bits read as two's complement, and the exact integer that a wrapped result stands for (R20-R22). -/
namespace Sys2Proof.Machine

theorem widthOf_pos (w : Wf) : 0 < widthOf w := by
  unfold widthOf
  split <;> decide

theorem lowBits_lt (n : Nat) (v : Word) : lowBits n v < 2 ^ n := Nat.mod_lt _ (Nat.two_pow_pos n)

theorem two_pow_eq_cast (n : Nat) : (2 : Int) ^ n = ((2 ^ n : Nat) : Int) := (Int.natCast_pow 2 n).symm

/-- The library's balanced remainder is the two's complement reading. -/
theorem toSigned_eq_bmod {n : Nat} (hn : 0 < n) (v : Nat) : toSigned n v = Int.bmod v (2 ^ n) := by
  have h2 := Nat.two_pow_pred_add_two_pow_pred hn
  have hv : ((v % 2 ^ n : Nat) : Int) = (v : Int) % ((2 ^ n : Nat) : Int) := Int.natCast_emod ..
  rw [toSigned, Int.bmod_def, ← hv, two_pow_eq_cast]
  split <;> split <;> omega

/-- The two's complement reading differs from the number by a multiple of 2^n. -/
theorem toSigned_eq_add_mul (n v : Nat) : ∃ k : Int, toSigned n v = v + ((2 ^ n : Nat) : Int) * k := by
  have hv : ((2 ^ n : Nat) : Int) * (v / 2 ^ n : Nat) + (v % 2 ^ n : Nat) = v := by exact_mod_cast Nat.div_add_mod v (2 ^ n)
  rw [toSigned, two_pow_eq_cast]
  split
  · refine ⟨-(v / 2 ^ n : Nat), ?_⟩
    rw [Int.mul_neg]
    omega
  · refine ⟨-(v / 2 ^ n : Nat) - 1, ?_⟩
    rw [Int.mul_sub, Int.mul_neg]
    omega

/-- A number that differs from an integer by a multiple of 2^n is, at n bits, that integer wrapped. -/
theorem mod_eq_wrapTo {n m : Nat} {x k : Int} (h : x = m + ((2 ^ n : Nat) : Int) * k) : m % 2 ^ n = wrapTo n x := by
  rw [wrapTo, two_pow_eq_cast, h, Int.add_mul_emod_self_left, ← Int.natCast_emod, Int.toNat_natCast]

theorem toSigned_wrapTo {n : Nat} (hn : 0 < n) (x : Int) : toSigned n (wrapTo n x) = Int.bmod x (2 ^ n) := by
  have hp := Nat.two_pow_pos n
  rw [toSigned_eq_bmod hn, wrapTo, two_pow_eq_cast, Int.toNat_of_nonneg (Int.emod_nonneg x (by omega)), Int.emod_bmod]

/-- Whether an exact value does not fit the n-bit signed range (R100). -/
def overflows (n : Nat) (x : Int) : Bool := decide (x < -2 ^ (n - 1) ∨ 2 ^ (n - 1) ≤ x)

/-- Wrapping changes exactly the values that do not fit. -/
theorem toSigned_wrapTo_ne_iff {n : Nat} (hn : 0 < n) (x : Int) :
    toSigned n (wrapTo n x) ≠ x ↔ x < -2 ^ (n - 1) ∨ 2 ^ (n - 1) ≤ x := by
  have h2 := Nat.two_pow_pred_mul_two hn
  rw [toSigned_wrapTo hn, ne_eq, Int.bmod_eq_iff (Nat.two_pow_pos n), two_pow_eq_cast, Int.sub_self, ← h2]
  have hd : ((2 ^ (n - 1) * 2 : Nat) : Int) ∣ 0 := Int.dvd_zero _
  generalize 2 ^ (n - 1) = p at *
  simp only [hd, and_true]
  omega

theorem toSigned_eq_least_iff {n a : Nat} (hn : 0 < n) (ha : a < 2 ^ n) : toSigned n a = -2 ^ (n - 1) ↔ a = 2 ^ (n - 1) := by
  have h2 := Nat.two_pow_pred_mul_two hn
  rw [toSigned, Nat.mod_eq_of_lt ha, two_pow_eq_cast, two_pow_eq_cast]
  split <;> omega

theorem toSigned_eq_neg_one_iff {n b : Nat} (hn : 0 < n) (hb : b < 2 ^ n) : toSigned n b = -1 ↔ b = 2 ^ n - 1 := by
  have h2 := Nat.two_pow_pred_mul_two hn
  rw [toSigned, Nat.mod_eq_of_lt hb, two_pow_eq_cast]
  split <;> omega

/-- Bits 255 to 128 of a wrapped integer. -/
theorem wrapTo_256_div (x : Int) : wrapTo 256 x / 2 ^ 128 = wrapTo 128 (x / 2 ^ 128) := by
  rw [wrapTo, wrapTo]
  omega

/-! ## Sums and differences -/

/-- An exact integer as an n-bit result, with the four flags of R100. -/
def exactOut (n : Nat) (cf : Bool) (x : Int) : IntOut :=
  let d := wrapTo n x
  { d := d, mask := 15, vals := nzcv (d.testBit (n - 1)) (d == 0) cf (overflows n x) }

theorem addOut_eq_exactOut {n : Nat} (hn : 0 < n) (a b cin : Nat) :
    addOut n a b cin = exactOut n (decide (2 ^ n ≤ a + b + cin)) (toSigned n a + toSigned n b + cin) := by
  have hd : (a + b + cin) % 2 ^ n = wrapTo n (toSigned n a + toSigned n b + cin) := by
    obtain ⟨ka, ha⟩ := toSigned_eq_add_mul n a
    obtain ⟨kb, hb⟩ := toSigned_eq_add_mul n b
    refine mod_eq_wrapTo (k := ka + kb) ?_
    rw [ha, hb, Int.mul_add]
    omega
  simp only [addOut, exactOut, nz, nzcv, overflows, hd, ← toSigned_wrapTo_ne_iff hn, ne_comm]

theorem subOut_eq_exactOut {n a b borrow : Nat} (hn : 0 < n) (hb : b < 2 ^ n) (hw : borrow ≤ 1) :
    subOut n a b borrow = exactOut n (decide (b + borrow ≤ a)) (toSigned n a - toSigned n b - borrow) := by
  have hd : (a + 2 ^ n - b - borrow) % 2 ^ n = wrapTo n (toSigned n a - toSigned n b - borrow) := by
    obtain ⟨ka, ha⟩ := toSigned_eq_add_mul n a
    obtain ⟨kb, hb'⟩ := toSigned_eq_add_mul n b
    refine mod_eq_wrapTo (k := ka - kb - 1) ?_
    rw [ha, hb', Int.mul_sub, Int.mul_sub]
    omega
  simp only [subOut, exactOut, nz, nzcv, overflows, hd, ← toSigned_wrapTo_ne_iff hn, ne_comm]

end Sys2Proof.Machine
end

section
/-! SUPPORT. The issue of the integer instructions of opcodes 0x00 to 0x09: a body that puts an integer result in flight and records its
cause leaves what `issued` makes of those writes. -/
namespace Sys2Proof.Machine

@[simp] theorem nzcv_overflow (n z c v : Bool) : (nzcv n z c v).getLsbD 3 = v := by
  revert n z c v
  decide

/-- The writes of an integer result and its flags at a distance (R22, R62). -/
def intWrites (dist n : Nat) (gd : Option Reg) (o : IntOut) : List (Nat × WriteWhat) :=
  (gd.map fun r => (dist, WriteWhat.reg r (TWord.plain (signFill n o.d)))).toList ++ [(dist, .flags o.mask o.vals)]

theorem writeInt_eq_writes (c : CoreId) (t dist n : Nat) (gd : Option Reg) (o : IntOut) (s : State) :
    writeInt c (t + dist) n gd o s = writes c t (intWrites dist n gd o) s := by
  cases gd <;> rfl

theorem wf_legal {w : Wf} (hw : w ≠ 3) : (w != 3) = true := by simpa using hw

/-- What an exact sum or difference x leaves: its result, where a register takes it, the four flags, and INT_OVERFLOW from a form that
writes a result (R99, R100, R103). -/
def exactIssued (s : State) (c : CoreId) (n : Nat) (gd : Option Reg) (cf : Bool) (x : Int) : State :=
  issued s c (if gd.isSome then paCost (operandCore s c) 1 else 1) fun u =>
    causeIf (gd.isSome && stOE (operandCore s c).x.status && overflows n x) c cIntOverflow
      (writes c (issueCycle s c) (intWrites 1 n gd (exactOut n cf x)) u)

/-- The ALU body issues; the forms that write a result are those that can trap. -/
theorem issue_aluBody_exact {s : State} {c : CoreId} {cond : Cond} {d : Demand} {f : Form} {n : Nat} {gd : Option Reg}
    {out : Core → IntOut} {cf : Bool} {x : Int} (h : clear s c cond d = true) (hf : f.asks d) (hc : f.cond = cond)
    (hl : f.legal = true) (ho : out (operandCore s c) = exactOut n cf x) :
    issue c f (aluBody c n gd gd.isSome out) s = .next (exactIssued s c n gd cf x) := by
  have hv : (out (operandCore s c)).vals.getLsbD 3 = overflows n x := by rw [ho]; exact nzcv_overflow ..
  rw [exactIssued, ← ho, ← hv]
  refine issue_issued h hf hc hl ?_
  simp only [aluBody, writeInt_eq_writes]
  rfl

section
variable {s : State} {c : CoreId} {cond : Cond} {w : Wf} {gd ga gb : Reg} {imm : BitVec 10} {fn : BitVec 5} {op6 : BitVec 6}
  {wr : Bool} {cf : Bool} {x : Int}

/-- A register form whose result is an exact integer. -/
theorem aluReg_exact {op : Nat → Nat → Nat → BitVec 32 → IntOut} (hw : w ≠ 3)
    (h : clear s c cond { rptOk := true, writes := if wr then [gd] else [] } = true)
    (ho : op (widthOf w) (lowBits (widthOf w) ((operandCore s c).reg ga).val) (lowBits (widthOf w) ((operandCore s c).reg gb).val)
      (operandCore s c).x.status = exactOut (widthOf w) cf x) :
    aluReg c cond w gd ga gb fn wr wr op s = .next (exactIssued s c (widthOf w) (if wr then some gd else none) cf x) := by
  cases wr <;> exact issue_aluBody_exact h ⟨rfl, rfl, rfl, rfl⟩ rfl (wf_legal hw) ho

/-- An immediate form whose result is an exact integer (R101). -/
theorem aluImm_exact {op : Nat → Nat → Nat → IntOut} (hw : w ≠ 3)
    (h : clear s c cond { rptOk := true, ext := true, writes := if wr then [gd] else [] } = true)
    (ho : op (widthOf w) (lowBits (widthOf w) ((operandCore s c).reg ga).val) (lowBits (widthOf w) (immWord (operandCore s c) imm)) =
      exactOut (widthOf w) cf x) :
    aluImm c cond w gd ga imm op6 wr wr op s = .next (exactIssued s c (widthOf w) (if wr then some gd else none) cf x) := by
  cases wr <;> exact issue_aluBody_exact h ⟨rfl, rfl, rfl, rfl⟩ rfl (wf_legal hw) ho

end

/-- Settles O8: each form is one exact sum or difference of its operands, by `addOut_eq_exactOut` and `subOut_eq_exactOut`. -/
theorem sumsAndDifferences : Obligations.SumsAndDifferences := by
  unfold Obligations.SumsAndDifferences
  intro s c cond w gd ga gb imm hw n k t a b i sg carry out
  have hn : 0 < n := widthOf_pos w
  have hb : b < 2 ^ n := lowBits_lt ..
  have hi : i < 2 ^ n := lowBits_lt ..
  have add (y : Nat) : addOut n a y 0 = exactOut n (decide (2 ^ n ≤ a + y)) (sg a + sg y) := by
    simpa using addOut_eq_exactOut hn a y 0
  have sub (x : Nat) {y : Nat} (hy : y < 2 ^ n) : subOut n x y 0 = exactOut n (decide (y ≤ x)) (sg x - sg y) := by
    simpa using subOut_eq_exactOut (a := x) hn hy (Nat.zero_le 1)
  have adc : addOut n a b carry = exactOut n (decide (2 ^ n ≤ a + b + carry)) (sg a + sg b + carry) :=
    addOut_eq_exactOut hn a b carry
  have sbc : subOut n a b (if k.x.status.getLsbD 2 then 0 else 1) =
      exactOut n (decide (b + (1 - carry) ≤ a)) (sg a - sg b - (1 - carry : Nat)) := by
    have hc : (if k.x.status.getLsbD 2 then 0 else 1) = 1 - carry := by simp only [carry]; split <;> rfl
    rw [hc]
    exact subOut_eq_exactOut hn hb (Nat.sub_le ..)
  have neg : subOut n 0 b 0 = exactOut n (decide (b = 0)) (-sg b) := by
    have h0 : sg 0 = 0 := by simp [sg, toSigned]
    simpa [h0] using sub 0 hb
  have out_some (r : Reg) (cf : Bool) (x : Int) : .next (exactIssued s c n (some r) cf x) = out (some r) cf x := by
    simp only [exactIssued, Option.isSome_some, Bool.true_and, if_true, out]
    rfl
  have out_none (cf : Bool) (x : Int) : .next (exactIssued s c n none cf x) = out none cf x := rfl
  refine ⟨fun h => ⟨?_, ?_, ?_, ?_, ?_⟩, fun h => ?_, fun h => ⟨?_, ?_⟩, fun h => ?_⟩
  · rw [← out_some]
    change execAdd c cond w gd ga gb s = _
    exact aluReg_exact (wr := true) hw h (add b)
  · rw [← out_some]
    change execSub c cond w gd ga gb s = _
    exact aluReg_exact (wr := true) hw h (sub a hb)
  · rw [← out_some]
    change execAdc c cond w gd ga gb s = _
    exact aluReg_exact (wr := true) hw h adc
  · rw [← out_some]
    change execSbc c cond w gd ga gb s = _
    exact aluReg_exact (wr := true) hw h sbc
  · rw [← out_some]
    change execNeg c cond w gd gb s = _
    exact aluReg_exact (wr := true) hw h neg
  · rw [← out_none]
    change execCmp c cond w ga gb s = _
    exact aluReg_exact (wr := false) hw h (sub a hb)
  · rw [← out_some]
    change execAddi c cond w gd ga imm s = _
    exact aluImm_exact (wr := true) hw h (add i)
  · rw [← out_some]
    change execSubi c cond w gd ga imm s = _
    exact aluImm_exact (wr := true) hw h (sub a hi)
  · rw [← out_none]
    change execCmpi c cond w ga imm s = _
    exact aluImm_exact (wr := false) hw h (sub a hi)

end Sys2Proof.Machine
end

section
/-! SUPPORT. The multiplications: their results and flags, their issue at the cost and distance of R106, and ILLEGAL of MULH and MULHU at
widths other than 128 (R105). -/
namespace Sys2Proof.Machine

/-- A result of R105 with its flags N, Z and V. -/
def prodOut (n : Nat) (v : Bool) (d : Nat) : IntOut :=
  { d := d, mask := 11, vals := nzcv (d.testBit (n - 1)) (d == 0) false v }

theorem nz_or_flag_overflow (n d : Nat) (v : Bool) : nz n d ||| flag fV v = nzcv (d.testBit (n - 1)) (d == 0) false v := by
  simp [nz, nzcv, flag]

theorem mulOut_signed {n : Nat} (hn : 0 < n) (a b : Nat) :
    mulOut n true a b = prodOut n (overflows n (toSigned n a * toSigned n b)) (wrapTo n (toSigned n a * toSigned n b)) := by
  simp only [mulOut, if_true, prodOut, nz_or_flag_overflow, overflows, ← toSigned_wrapTo_ne_iff hn]

theorem mulOut_unsigned (n a b : Nat) : mulOut n false a b = prodOut n (decide (2 ^ n ≤ a * b)) (a * b % 2 ^ n) := by
  simp only [mulOut, Bool.false_eq_true, if_false, prodOut, nz_or_flag_overflow]

theorem mulHighOut_eq_prodOut (sgn : Bool) (a b : Nat) :
    mulHighOut sgn a b = prodOut 128 false
      (if sgn then wrapTo 128 (toSigned 128 a * toSigned 128 b / 2 ^ 128) else a * b / 2 ^ 128) := by
  have h (d : Nat) : nz 128 d = nzcv (d.testBit (128 - 1)) (d == 0) false false := by
    simpa [flag] using nz_or_flag_overflow 128 d false
  simp only [mulHighOut, prodOut, h, wrapTo_256_div]

/-- What a product leaves: result and flags at the distance of R106, and INT_OVERFLOW of the forms that trap (R103). -/
def prodIssued (s : State) (c : CoreId) (n : Nat) (gd : Reg) (b : Nat) (sgn traps : Bool) (v : Bool) (d : Nat) : State :=
  let timing := mulTiming (operands s c).lean n sgn b
  issued s c (if traps then paCost (operandCore s c) timing.1 else timing.1) fun u =>
    causeIf (traps && stOE (operandCore s c).x.status && v) c cIntOverflow
      (writes c (issueCycle s c) (intWrites timing.2 n (some gd) (prodOut n v d)) u)

theorem issue_mulBody {s : State} {c : CoreId} {cond : Cond} {d : Demand} {f : Form} {n : Nat} {gd ga gb : Reg} {sgn traps : Bool}
    {out : Nat → Nat → IntOut} {v : Bool} {r : Nat} (h : clear s c cond d = true) (hf : f.asks d) (hc : f.cond = cond)
    (hl : f.legal = true)
    (ho : out (lowBits n ((operandCore s c).reg ga).val) (lowBits n ((operandCore s c).reg gb).val) = prodOut n v r) :
    issue c f (mulBody c n gd ga gb sgn traps out) s =
      .next (prodIssued s c n gd (lowBits n ((operandCore s c).reg gb).val) sgn traps v r) := by
  have hv : (out (lowBits n ((operandCore s c).reg ga).val) (lowBits n ((operandCore s c).reg gb).val)).vals.getLsbD 3 = v := by
    rw [ho]
    exact nzcv_overflow ..
  rw [prodIssued, ← ho, ← hv]
  refine issue_issued h hf hc hl ?_
  simp only [mulBody, writeInt_eq_writes]
  rfl

/-- ILLEGAL of a word at the PCC of core k, as R303 gives its fields. -/
def illegalCause (k : Core) (word : BitVec 32) : Cause :=
  { code := 0x01, xpc := k.pc, xaddr := k.pc, xinfo := word.setWidth 64, fault := true, back := false }

/-- An illegal word that follows no IMM and no RPT, with no imprecise cause pending, raises ILLEGAL at its own address (R94, R303). -/
theorem issue_illegal {s : State} {c : CoreId} {cond : Cond} {d : Demand} {f : Form} {body : Nat → State → Body}
    (h : clear s c cond d = true) (hl : f.legal = false) (hx : (operandCore s c).seq.imprecise = none)
    (hi : (operandCore s c).seq.imm = none) (hr : (operandCore s c).seq.rpt = none) :
    issue c f body s = .next (deliver c (issueCycle s c) (illegalCause (operandCore s c) f.word) (boundary s c)) := by
  obtain ⟨h1, h0, h9, h10, h2, -⟩ := clear_parts h
  obtain ⟨hq, hpc⟩ := withCount_core c (atIssue s c)
  have hd : deFault ((atIssue s c).core c) f = some (illegalCause (operandCore s c) f.word) := by
    rw [← deFault_congr (k := operandCore s c) f hq hpc]
    simp [deFault, illegalCause, hl, hi, hr]
  have hx' : impreciseDue c (issueCycle s c) true (atIssue s c) = none := by
    rw [operandCore, operands, hq] at hx
    simp [impreciseDue, hx]
  have hv : verdict c f body (issueCycle s c) (atIssue s c) =
      .de (illegalCause (operandCore s c) f.word) := by simp only [verdict, hd]
  simp only [arrived] at h1 h0 h9
  simp only [issue, issueState, h1, h0, h9, Bool.not_true, Bool.false_eq_true, ↓reduceIte]
  refine congrArg _ ((softFetch_none h10).trans ?_)
  change resolve c f (issueCycle s c) (boundary s c) (atIssue s c) (verdict c f body (issueCycle s c) (atIssue s c)) = _
  rw [hv, resolve, h2]
  have hm : (Verdict.de (illegalCause (operandCore s c) f.word)).machine = false := rfl
  simp only [hm, Verdict.precise, Bool.false_eq_true, ↓reduceIte, hx', carryOut]

end Sys2Proof.Machine
end

section
/-! SUPPORT. The divisions (R104, R105, R107) and the causes of a division. -/
namespace Sys2Proof.Machine

/-- A quotient or remainder with the flag V. -/
def quotOut (v : Bool) (d : Nat) : IntOut := { d := d, mask := 8, vals := nzcv false false false v }

theorem flag_overflow_eq_nzcv (v : Bool) : flag fV v = nzcv false false false v := by
  simp [nzcv, flag]

theorem divOut_zero (n a : Nat) (sgn rem : Bool) : divOut n sgn rem a 0 = quotOut true (if rem then a else 0) := by
  simp only [divOut, quotOut, flag_overflow_eq_nzcv, if_true, decide_true, Bool.true_or]
  rfl

theorem divOut_signed {n a b : Nat} (hn : 0 < n) (ha : a < 2 ^ n) (hb : b < 2 ^ n) (h0 : b ≠ 0) (rem : Bool) :
    divOut n true rem a b = quotOut (decide (toSigned n a = -2 ^ (n - 1)) && decide (toSigned n b = -1))
      (wrapTo n (if rem then (toSigned n a).tmod (toSigned n b) else (toSigned n a).tdiv (toSigned n b))) := by
  simp only [divOut, quotOut, flag_overflow_eq_nzcv, h0, if_false, if_true, decide_false, Bool.false_or, Bool.true_and,
    toSigned_eq_least_iff hn ha, toSigned_eq_neg_one_iff hn hb]
  rfl

theorem divOut_unsigned {b : Nat} (n a : Nat) (h0 : b ≠ 0) (rem : Bool) :
    divOut n false rem a b = quotOut false (if rem then a % b else a / b) := by
  simp only [divOut, quotOut, flag_overflow_eq_nzcv, h0, if_false, Bool.false_eq_true, decide_false, Bool.false_or, Bool.false_and]
  rfl

/-- By 0 a division can record INT_DIVZERO alone, by another divisor INT_OVERFLOW alone (R103, R104). -/
theorem division_cause (b : Nat) (v enabled divzero : Bool) (c : CoreId) (s : State) :
    (if b = 0 then causeIf divzero c cIntDivzero s else causeIf (v && enabled) c cIntOverflow s) =
      causeIf (b != 0 && v && enabled) c cIntOverflow (causeIf (b == 0 && divzero) c cIntDivzero s) := by
  by_cases h : b = 0 <;> simp [h, causeIf]

/-- What a division leaves at the end of its count. -/
def quotIssued (s : State) (c : CoreId) (n : Nat) (gd : Reg) (b : Nat) (v : Bool) (d : Nat) : State :=
  issued s c (paCost (operandCore s c) (divCost n)) fun u =>
    causeIf (b != 0 && stOE (operandCore s c).x.status && v) c cIntOverflow
      (causeIf (b == 0 && stDZE (operandCore s c).x.status) c cIntDivzero
        (writes c (issueCycle s c) (intWrites (divCost n) n (some gd) (quotOut v d)) u))

theorem divIssue_quotient {s : State} {c : CoreId} {cond : Cond} {w : Wf} {gd ga gb : Reg} {fn : BitVec 5} {sgn rem : Bool} {v : Bool}
    {d : Nat} (hw : w ≠ 3) (h : clear s c cond { rptOk := true, banned := true, writes := [gd] } = true) (hs : stepDue s c = false)
    (ho : divOut (widthOf w) sgn rem (lowBits (widthOf w) ((operandCore s c).reg ga).val)
      (lowBits (widthOf w) ((operandCore s c).reg gb).val) = quotOut v d) :
    divIssue c cond w gd ga gb fn sgn rem s =
      .next (quotIssued s c (widthOf w) gd (lowBits (widthOf w) ((operandCore s c).reg gb).val) v d) := by
  have hv : (divOut (widthOf w) sgn rem (lowBits (widthOf w) ((operandCore s c).reg ga).val)
      (lowBits (widthOf w) ((operandCore s c).reg gb).val)).vals.getLsbD 3 = v := by
    rw [ho]
    exact nzcv_overflow ..
  rw [quotIssued, ← ho, ← hv]
  refine issue_issued h ⟨rfl, rfl, rfl, rfl⟩ rfl (by simpa [intForm, hs] using hw) ?_
  simp only [divBody, writeInt_eq_writes, division_cause]
  rfl

/-- Settles O10: each product and quotient is the result of its model function as an exact integer (`mulOut_signed`, `divOut_signed` and
their like), issued by `issue_mulBody` and `divIssue_quotient`. -/
theorem productsAndQuotients : Obligations.ProductsAndQuotients := by
  unfold Obligations.ProductsAndQuotients
  constructor
  · intro s c cond w gd ga gb hw h n k t a b sg out
    have hn : 0 < n := widthOf_pos w
    have out_eq (sgn traps : Bool) (d : Nat) (v : Bool) : .next (prodIssued s c n gd b sgn traps v d) = out sgn traps d v := by
      simp only [prodIssued, mulTiming, out]
      cases (operands s c).lean <;> rfl
    refine ⟨?_, ?_, fun h2 => ⟨?_, ?_⟩, fun h2 hx hi hr i hmem => ?_⟩
    · rw [← out_eq]
      change execMul c cond w gd ga gb s = _
      exact issue_mulBody h ⟨rfl, rfl, rfl, rfl⟩ rfl (wf_legal hw) (mulOut_signed hn a b)
    · rw [← out_eq]
      change execMulu c cond w gd ga gb s = _
      exact issue_mulBody h ⟨rfl, rfl, rfl, rfl⟩ rfl (wf_legal hw) (mulOut_unsigned n a b)
    · rw [← out_eq]
      subst h2
      change execMulh c cond 2 gd ga gb s = _
      exact issue_mulBody h ⟨rfl, rfl, rfl, rfl⟩ rfl rfl (mulHighOut_eq_prodOut true a b)
    · rw [← out_eq]
      subst h2
      change execMulhu c cond 2 gd ga gb s = _
      exact issue_mulBody h ⟨rfl, rfl, rfl, rfl⟩ rfl rfl (mulHighOut_eq_prodOut false a b)
    · have hl : (w == 2) = false := by simpa using h2
      simp only [List.mem_cons, List.not_mem_nil, or_false] at hmem
      obtain rfl | rfl := hmem
      · exact ⟨_, issue_illegal h hl hx hi hr⟩
      · exact ⟨_, issue_illegal h hl hx hi hr⟩
  · intro s c cond w gd ga gb hw h hs n k t a b sg count out least
    have hn : 0 < n := widthOf_pos w
    have ha : a < 2 ^ n := lowBits_lt ..
    have hb : b < 2 ^ n := lowBits_lt ..
    have out_eq (d : Nat) (v : Bool) : .next (quotIssued s c n gd b v d) = out d v := rfl
    have divides {fn : BitVec 5} {sgn rem v : Bool} {d : Nat} (ho : divOut n sgn rem a b = quotOut v d) :
        divIssue c cond w gd ga gb fn sgn rem s = out d v := (divIssue_quotient hw h hs ho).trans (out_eq d v)
    refine ⟨fun h0 => ?_, fun h0 => ?_⟩
    · have zero (sgn rem : Bool) : divOut n sgn rem a b = quotOut true (if rem then a else 0) := by
        rw [h0]
        exact divOut_zero ..
      exact ⟨divides (zero true false), divides (zero false false), divides (zero true true), divides (zero false true)⟩
    · exact ⟨divides (divOut_signed hn ha hb h0 false), divides (divOut_unsigned n a h0 false),
        divides (divOut_signed hn ha hb h0 true), divides (divOut_unsigned n a h0 true)⟩

end Sys2Proof.Machine
end

section
/-! SUPPORT. The division steps (R111, R112) and the long division that their trials make (R113). -/
namespace Sys2Proof.Machine

/-- The writes of a pair of registers (R111). -/
def pairWrites (n : Nat) (gd : Reg) (p : Nat × Nat) : List (Nat × WriteWhat) :=
  [(1, .reg gd (TWord.plain (signFill n p.1))), (1, .reg (pairReg gd) (TWord.plain (signFill n p.2)))]

theorem writePair_eq_writes (c : CoreId) (t n : Nat) (gd : Reg) (p : Nat × Nat) (s : State) :
    writePair c (t + 1) n gd p s = writes c t (pairWrites n gd p) s := rfl

theorem pushFlags_writes (c : CoreId) (t d : Nat) (m v : BitVec 6) (l : List (Nat × WriteWhat)) (s : State) :
    pushFlags c (t + d) m v (writes c t l s) = writes c t (l ++ [(d, .flags m v)]) s := by
  simp only [writes, List.foldl_append, List.foldl_cons, List.foldl_nil]
  rfl

/-- The flags of a division step are written in another order than `nzcv` has them. -/
theorem flags_ncz_eq_nzcv (n z c v : Bool) : flag fN n ||| flag fC c ||| flag fZ z ||| flag fV v = nzcv n z c v := by
  rw [nzcv, BitVec.or_assoc (flag fN n), BitVec.or_comm (flag fC c), ← BitVec.or_assoc]

theorem flags_zv_eq_nzcv (z v : Bool) : flag fZ z ||| flag fV v = nzcv false z false v := by
  simp [nzcv, flag]

theorem beq_zero_eq_decide (b : Nat) : (b == 0) = decide (b = 0) := rfl

section
variable {s : State} {c : CoreId} {cond : Cond} {w : Wf} {gd ga gb : Reg} {fn : BitVec 5}

/-- A division step of an even register other than g0 issues with what its body does. -/
theorem issue_stepForm {body : Nat → State → Body} {cost : Nat} {effect : State → State} (hw : w ≠ 3) (he : gd.val % 2 = 0) (h0 : gd ≠ 0)
    (h : clear s c cond { rptOk := true, writes := [gd, pairReg gd] } = true)
    (hb : body (issueCycle s c) (operands s c) = .done cost (effect (operands s c))) :
    issue c (stepForm cond w gd ga gb fn) body s = .next (issued s c cost effect) :=
  issue_issued h ⟨rfl, rfl, rfl, rfl⟩ rfl (by simpa [stepForm, intForm, pairOk, he, h0] using hw) hb

/-- DSTEP and DSTEPU leave two trials on their pair in flight. -/
theorem issue_divStepBody {sgn : Bool} (hw : w ≠ 3) (he : gd.val % 2 = 0) (h0 : gd ≠ 0)
    (h : clear s c cond { rptOk := true, writes := [gd, pairReg gd] } = true) :
    let n := widthOf w
    let b := lowBits n ((operandCore s c).reg gb).val
    let trial := divTrial n (if sgn then magnitude n b else b)
    issue c (stepForm cond w gd ga gb fn) (divStepBody c n gd gb sgn) s =
      .next (issued s c 1 (writes c (issueCycle s c) (pairWrites n gd (trial (trial (readPair (operandCore s c) n gd)))))) := by
  intro n b trial
  refine issue_stepForm hw he h0 h ?_
  simp only [divStepBody, writePair_eq_writes]
  rfl

end

/-- One trial takes the top bit b of the quotient register into the remainder r, and the quotient bit of 2r + b in below the rest l (R112). -/
theorem divTrial_eq {n d r b l : Nat} (hn : 0 < n) (hd : d < 2 ^ n) (hr : r < d) (hb : b < 2) (hl : l < 2 ^ (n - 1)) :
    divTrial n d (r, b * 2 ^ (n - 1) + l) = ((2 * r + b) % d, 2 * l + (2 * r + b) / d) := by
  have hp := Nat.two_pow_pred_mul_two hn
  have hquo : (b * 2 ^ (n - 1) + l) * 2 % 2 ^ n = 2 * l := by
    have h : (b * 2 ^ (n - 1) + l) * 2 = 2 * l + 2 ^ n * b := by
      rw [← hp, Nat.mul_comm _ b, ← Nat.mul_assoc]
      omega
    rw [h, Nat.add_mul_mod_self_left, Nat.mod_eq_of_lt (by omega)]
  have htop : (b * 2 ^ (n - 1) + l) / 2 ^ (n - 1) = b := by
    rw [Nat.add_comm, Nat.add_mul_div_right _ _ (Nat.two_pow_pos _), Nat.div_eq_of_lt hl, Nat.zero_add]
  have hbit : (if (b * 2 ^ (n - 1) + l).testBit (n - 1) then 1 else 0) = b := by
    rw [Nat.testBit_eq_decide_div_mod_eq, htop, Nat.mod_eq_of_lt hb]
    obtain rfl | rfl : b = 0 ∨ b = 1 := by omega
    · rfl
    · rfl
  simp only [divTrial, hquo, hbit]
  split
  case isTrue h =>
    have h1 : 2 * r + b - d < d := by omega
    rw [Nat.mod_eq_of_lt (Nat.lt_trans h1 hd), Nat.mod_eq_sub_mod h, Nat.mod_eq_of_lt h1, Nat.div_eq_sub_div (by omega) h, Nat.div_eq_of_lt h1]
  case isFalse h =>
    have h1 : 2 * r + b < d := by omega
    rw [Nat.mod_eq_of_lt (Nat.lt_trans h1 hd), Nat.mod_eq_of_lt h1, Nat.div_eq_of_lt h1, Nat.add_zero]

/-- A pair that holds the remainder of a's bits above bit m, the m + 1 bits of a below, and the quotient of those above: one trial moves
bit m from the second part to the first and third. -/
theorem divTrial_next_bit {n m i d a : Nat} (hn : m + i + 1 = n) (h0 : 0 < d) (hd : d < 2 ^ n) (ha : a < 2 ^ n) :
    divTrial n d (a / 2 ^ (m + 1) % d, a % 2 ^ (m + 1) * 2 ^ i + a / 2 ^ (m + 1) / d) =
      (a / 2 ^ m % d, a % 2 ^ m * 2 ^ (i + 1) + a / 2 ^ m / d) := by
  have hn' : n - 1 = m + i := by omega
  have htop : a / 2 ^ (m + 1) < 2 ^ i := by
    have hsum : i + (m + 1) = n := by omega
    rwa [Nat.div_lt_iff_lt_mul (Nat.two_pow_pos _), ← Nat.pow_add, hsum]
  have hl : a % 2 ^ m * 2 ^ i + a / 2 ^ (m + 1) / d < 2 ^ (n - 1) := by
    have hlow := Nat.mul_le_mul_right (2 ^ i) (Nat.succ_le_of_lt (Nat.mod_lt a (Nat.two_pow_pos m)))
    have hquo := Nat.lt_of_le_of_lt (Nat.div_le_self (a / 2 ^ (m + 1)) d) htop
    rw [Nat.succ_mul, ← Nat.pow_add, ← hn'] at hlow
    omega
  have hpair : a % 2 ^ (m + 1) * 2 ^ i + a / 2 ^ (m + 1) / d =
      a / 2 ^ m % 2 * 2 ^ (n - 1) + (a % 2 ^ m * 2 ^ i + a / 2 ^ (m + 1) / d) := by
    rw [Nat.mod_pow_succ, hn', Nat.add_mul, Nat.mul_comm (2 ^ m), Nat.mul_assoc, ← Nat.pow_add]
    omega
  have hbits : a / 2 ^ m = d * (2 * (a / 2 ^ (m + 1) / d)) + (2 * (a / 2 ^ (m + 1) % d) + a / 2 ^ m % 2) := by
    have hhalf : a / 2 ^ (m + 1) = a / 2 ^ m / 2 := by rw [Nat.pow_succ, Nat.div_div_eq_div_mul]
    have hdiv := Nat.div_add_mod (a / 2 ^ (m + 1)) d
    have htwo := Nat.div_add_mod (a / 2 ^ m) 2
    rw [← hhalf] at htwo
    rw [Nat.mul_left_comm]
    omega
  rw [hpair, divTrial_eq (by omega) hd (Nat.mod_lt _ h0) (Nat.mod_lt _ Nat.two_pos) hl]
  refine Prod.ext ?_ ?_
  · conv => rhs; rw [hbits, Nat.mul_add_mod]
  · conv => rhs; rw [hbits, Nat.mul_add_div h0]
    rw [Nat.pow_succ 2 i, ← Nat.mul_assoc _ (2 ^ i)]
    omega

/-- After i of n trials the pair holds the remainder of the top i bits of a, the rest of a, and the quotient of those bits. -/
theorem repeat_divTrial {n d a : Nat} (h0 : 0 < d) (hd : d < 2 ^ n) (ha : a < 2 ^ n) (i : Nat) (hi : i ≤ n) :
    Nat.repeat (divTrial n d) i (0, a) =
      (a / 2 ^ (n - i) % d, a % 2 ^ (n - i) * 2 ^ i + a / 2 ^ (n - i) / d) := by
  induction i with
  | zero => simp [Nat.repeat, Nat.div_eq_of_lt ha, Nat.mod_eq_of_lt ha]
  | succ i ih =>
    have hi' : n - i = n - (i + 1) + 1 := by omega
    rw [Nat.repeat, ih (by omega), hi']
    exact divTrial_next_bit (by omega) h0 hd ha

/-- Settles O11: each step issues with the pair that its model function gives, and n trials divide by `repeat_divTrial`. -/
theorem divisionSteps : Obligations.DivisionSteps := by
  unfold Obligations.DivisionSteps
  constructor
  · intro s c cond w gd ga gb hw he h0 h n k t a b rem quo neg ovf pair trial two minus st fin
    have pair_eq (p : Nat × Nat) : pairWrites n gd p = pair p.1 p.2 := rfl
    have two_eq (d : Nat) : divTrial n d (divTrial n d (readPair k n gd)) = two d := rfl
    have fin_eq : divFinish n st (readPair k n gd) = fin := rfl
    refine ⟨?_, ?_, ?_, ?_, ?_⟩
    · change execDsteps c cond w gd ga gb s = _
      refine issue_stepForm hw he h0 h ?_
      simp only [decide_eq_true_eq, division_cause, writePair_eq_writes, pushFlags_writes, flags_ncz_eq_nzcv, beq_zero_eq_decide]
      rfl
    · change execDstepsu c cond w gd ga gb s = _
      refine issue_stepForm hw he h0 h ?_
      simp only [writePair_eq_writes, pushFlags_writes, flags_zv_eq_nzcv, beq_zero_eq_decide]
      rfl
    · rw [← two_eq, ← pair_eq]
      change execDstep c cond w gd gb s = _
      exact issue_divStepBody hw he h0 h
    · rw [← two_eq, ← pair_eq]
      change execDstepu c cond w gd gb s = _
      exact issue_divStepBody hw he h0 h
    · rw [← fin_eq, ← pair_eq]
      change execDstepf c cond w gd s = _
      refine issue_stepForm hw he h0 h ?_
      simp only [writePair_eq_writes]
      rfl
  · intro n d a hn h0 hd ha
    simpa [Nat.mod_one] using repeat_divTrial h0 hd ha n (Nat.le_refl n)

end Sys2Proof.Machine
end

section
/-! SUPPORT. The mask registers read and written (R49), a field put into a vector, and the mask operations (R200). -/
namespace Sys2Proof.Machine

section
variable {r : Regs} {kd j : KReg} {v : BitVec 512}

theorem kreg_setK_same : kreg (setK r kd v) kd = if kd = 0 then BitVec.allOnes 512 else v := by
  by_cases h : kd = 0 <;> simp [kreg, setK, h]

theorem kreg_setK_of_ne (h : j ≠ kd) : kreg (setK r kd v) j = kreg r j := by
  rw [setK]
  split
  · rfl
  · simp only [kreg, Fin.getElem_fin, Vector.getElem_set_ne _ _ (Fin.val_ne_of_ne h.symm)]

@[simp] theorem setK_w : (setK r kd v).w = r.w := by
  rw [setK]
  split <;> rfl

end

/-- A field put into a vector gives the bits from lo on, the other bits stay. -/
theorem getLsbD_putField {n w : Nat} (x : BitVec n) (lo : Nat) (v : BitVec w) {j : Nat} (hj : j < n) :
    (putField x lo v).getLsbD j = if lo ≤ j ∧ j < lo + w then v.getLsbD (j - lo) else x.getLsbD j := by
  have hn : j - lo < n := by omega
  simp only [putField, BitVec.getLsbD_or, BitVec.getLsbD_and, BitVec.getLsbD_not, BitVec.getLsbD_shiftLeft, BitVec.getLsbD_setWidth,
    BitVec.getLsbD_allOnes, hj, hn, decide_true, Bool.true_and]
  by_cases hlo : j < lo
  · simp [hlo, Nat.not_le.mpr hlo]
  · by_cases hw : j < lo + w
    · have hf : j - lo < w := by omega
      simp [hlo, hw, hf, Nat.not_lt.mp hlo]
    · have hf : w ≤ j - lo := by omega
      simp [hlo, hw, hf]

section
variable {e : VEntry} {r : Regs} {c : CoreId} {cond : Cond} {kd ka kb : KReg} {gd ga : Reg} {q : BitVec 2}

/-! ## The effect of each mask operation, as the mask register it writes -/

theorem vecEffect_kand (h : e.instr = .kand c cond kd ka kb) : vecEffect e r = vOut (setK r kd (kreg r ka &&& kreg r kb)) := by
  simp only [vecEffect, h, vMask]

theorem vecEffect_kor (h : e.instr = .kor c cond kd ka kb) : vecEffect e r = vOut (setK r kd (kreg r ka ||| kreg r kb)) := by
  simp only [vecEffect, h, vMask]

theorem vecEffect_kxor (h : e.instr = .kxor c cond kd ka kb) : vecEffect e r = vOut (setK r kd (kreg r ka ^^^ kreg r kb)) := by
  simp only [vecEffect, h, vMask]

theorem vecEffect_kandn (h : e.instr = .kandn c cond kd ka kb) :
    vecEffect e r = vOut (setK r kd (kreg r ka &&& ~~~(kreg r kb))) := by
  simp only [vecEffect, h, vMask]

theorem vecEffect_knot (h : e.instr = .knot c cond kd ka) : vecEffect e r = vOut (setK r kd (~~~(kreg r ka))) := by
  simp only [vecEffect, h, vMask]

theorem vecEffect_kmovg (h : e.instr = .kmovg c cond gd ka q) :
    vecEffect e r = { regs := r, g := some (gd, (kreg r ka).extractLsb' (128 * q.toNat) 128), fp := 0 } := by
  simp only [vecEffect, h]

theorem vecEffect_kmovk (h : e.instr = .kmovk c cond kd ga q) :
    vecEffect e r = vOut (setK r kd (putField (kreg r kd) (128 * q.toNat) e.op.val)) := by
  simp only [vecEffect, h]

end

/-- An entry whose effect is a mask register written changes that register alone, and k0 not at all (R49). -/
theorem vecEffect_writes_mask {e : VEntry} {r : Regs} {kd : KReg} {v : BitVec 512} (h : vecEffect e r = vOut (setK r kd v)) :
    kreg (vecEffect e r).regs kd = (if kd = 0 then BitVec.allOnes 512 else v) ∧
      (∀ j : KReg, j ≠ kd → kreg (vecEffect e r).regs j = kreg r j) ∧ (vecEffect e r).regs.w = r.w := by
  rw [h]
  exact ⟨kreg_setK_same, fun _ => kreg_setK_of_ne, setK_w⟩

/-- Settles O33: each operation that writes a mask register writes it whole (`vecEffect_writes_mask`), KMOVK by `getLsbD_putField`. -/
theorem maskOperations : Obligations.MaskOperations := by
  unfold Obligations.MaskOperations
  intro e r c cond kd ka kb gd q
  refine ⟨?_, ?_, ?_⟩
  · simp only [List.forall_mem_cons]
    exact ⟨fun h => vecEffect_writes_mask (vecEffect_kand h), fun h => vecEffect_writes_mask (vecEffect_kor h),
      fun h => vecEffect_writes_mask (vecEffect_kxor h), fun h => vecEffect_writes_mask (vecEffect_kandn h),
      fun h => vecEffect_writes_mask (vecEffect_knot h), List.forall_mem_nil _⟩
  · intro h
    rw [vecEffect_kmovg h]
    exact ⟨rfl, rfl⟩
  · intro ga h
    obtain ⟨written, others, wide⟩ := vecEffect_writes_mask (vecEffect_kmovk h (r := r))
    refine ⟨wide, others, fun j hj => ?_⟩
    rw [written]
    split
    · simp only [BitVec.getLsbD_allOnes, hj, decide_true]
    · exact getLsbD_putField _ _ _ hj

end Sys2Proof.Machine
end

section
/-! SUPPORT. A frame of an entry written over a word of LDS that is recorded as uncorrectable (R267, R313). -/
namespace Sys2Proof.Machine

/-- A list drawn from another, with the same keys in the same order, is that list where each key names one element. -/
theorem eq_of_map_eq_of_inj {α β : Type} {f : α → β} {l r : List α} (sub : ∀ x ∈ l, x ∈ r) (keys : l.map f = r.map f)
    (inj : ∀ x ∈ r, ∀ y ∈ r, f x = f y → x = y) : l = r := by
  have len : l.length = r.length := by rw [← List.length_map f, keys, List.length_map]
  refine List.ext_getElem len fun i hl hr => inj _ (sub _ (List.getElem_mem hl)) _ (List.getElem_mem hr) ?_
  rw [← List.getElem_map f (h := (List.length_map f).symm ▸ hl), List.getElem_of_eq keys, List.getElem_map]

/-- The machine after device reset with an uncorrectable error recorded 8 bytes into the LDS of core 0. No word under one code begins
there: the model itself records the starts of such words alone (`upset`, `eccWord`). -/
def strayError : State := { State.reset with eccBad := [ldsBase 0 + 8] }

/-- That machine once a frame of zeros at LDS offset 0 of core 0 is put under way in cycle 0. -/
def strayFrame : State := writeFrame 0 0 0 TWord.null 0 0 0 0 (branchRecord none false) strayError

theorem strayFrame_cycles : strayFrame.timed.map Timed.cycle = [4, 5, 6, 7, 8] := by
  decide

/-- Each put of the frame has a cycle of its own. -/
theorem strayFrame_cycle_inj : ∀ x ∈ strayFrame.timed, ∀ y ∈ strayFrame.timed, x.cycle = y.cycle → x = y := by
  decide

/-- The first two words of the frame each touch the recorded word without covering it, so each is reported to core 0 (R267, R269). -/
theorem strayFrame_reported :
    (((strayFrame.timed.foldl (fun z x => performTimed x z) strayError).core 0).seq.mcDue.map fun m => m.baddr.toNat) =
      [ldsBase 0 + 8, ldsBase 0 + 8] := by
  decide +kernel

/-- Refutes O19: the statement bounds no recorded error, and over one that begins within a word of the frame (`strayError`) the puts of
the frame are partial writes, whose report makes a MACHINE_CHECK due on core 0, so the cores do not stay as they were. -/
theorem not_entryFrames : ¬ Obligations.EntryFrames := by
  unfold Obligations.EntryFrames
  rintro ⟨frames, -⟩
  obtain ⟨-, l, acts, cycles, -, -, -, -, -, -, -, -, -, -, cores, -⟩ :=
    frames strayError 0 0 0 TWord.null 0 0 0 0 (branchRecord none false) (by decide) (by decide) (by decide)
  have whole : l = strayFrame.timed :=
    eq_of_map_eq_of_inj (fun x hx => (acts x).mpr (.inl hx)) (cycles.trans strayFrame_cycles.symm) strayFrame_cycle_inj
  have reported := strayFrame_reported
  rw [← whole, State.core, cores] at reported
  exact absurd reported (by decide)

end Sys2Proof.Machine
end
